-- ==== Sys2Proof/Word.lean ====
section
/-!
DEFINITION. The machine's bit-vector types (spec/10_state.md R20, R23; spec/20_memory.md R60;
spec/30_encoding.md R100).
-/

namespace Sys2Proof

/-- A data byte, a register A, B or C, an operand byte `xx`, a port number (R20, R60). -/
abbrev Byte := BitVec 8

/-- A data address, and the pair `X:Y` (R9, R60): 16 bits. -/
abbrev DataAddr := BitVec 16

/-- The value of PC, MC or IC. The manual gives the counters 9 to 17 bits (R23). They are held in 17 bits, and every
write reduces the value modulo `2 ^ PCW` (`Machine.wrapCtr`). -/
abbrev Counter := BitVec 17

/-- An instruction word `{opmsb, macro, OP[5:0], xx[7:0]}` (R100, R101). -/
abbrev InstrWord := BitVec 16

end Sys2Proof
end

