-- ==== Sys2Proof/Config.lean ====
section
/-!
DEFINITION. What the manual leaves to the implementation (spec/00_scope.md R7, spec/93_implementation_defined.md):
the parameters, as plain data that a machine carries unchanged, and the free values, as constants without a body.
-/

namespace Sys2Proof

/-- R61: `tiny` when program and data share one space, `split` when one memory is divided into a program area and a
data area that begins at `DATA_BASE`. -/
inductive MemoryModel where
  | tiny
  | split
  deriving DecidableEq, Repr

/-- R360: the role of instruction bit 15. Only the fast mode is described. -/
inductive OpmsbMode where
  | debug
  | parity
  | fast
  deriving DecidableEq, Repr

/-- R331: what LOOPDEC 0, LOOPZERO, LOOPSHRC and LOOPSHLC do while C is not 0. -/
inductive Loop0Repeat where
  | refuse
  | repeatSelf
  | fallthrough
  deriving DecidableEq, Repr

/-- The implementation parameters of the table of R7. A machine carries them in `State.cfg`, and no step changes them. -/
structure Config where
  /-- `PCW`, the width of PC, MC and IC, 9 to 17. -/
  pcw : Nat
  /-- `JRAW`, the width of JRA, 8 to 16. -/
  jraw : Nat
  /-- `MEMORY_MODEL`. -/
  memoryModel : MemoryModel
  /-- `DATA_BASE`, the physical address of data address 0 in the split model. -/
  dataBase : Nat
  /-- `MEM_BYTES`, the installed memory, at most 131072. -/
  memBytes : Nat
  /-- `USER_MODE`: UF, AE and the INTR1 interrupt exist. -/
  userMode : Bool
  /-- `PROT_LIMIT`: data addresses below it are protected from user-mode pointer forms. -/
  protLimit : Nat
  /-- `OPMSB_MODE`. -/
  opmsbMode : OpmsbMode
  /-- `JSIG121_OPTION`. -/
  jsig121Option : Bool
  /-- `HAS_MULX`. -/
  hasMulx : Bool
  /-- `HAS_MUL`. -/
  hasMul : Bool
  /-- `HAS_LOADSAVE`. No meaning depends on it: LOAD and SAVE have no described effect (R159). -/
  hasLoadSave : Bool
  /-- `HAS_PMEMACC`. -/
  hasPmemacc : Bool
  /-- `MACRO_BASE`. -/
  macroBase : Nat
  /-- `MACRO_STRIDE`. -/
  macroStride : Nat
  /-- `EXT_OPCODES`. -/
  extOpcodes : Bool
  /-- `VERSION_VALUE`, where the platform fixes it; `none` leaves it the free value `Config.freeVersion`. -/
  versionValue : Option Byte
  /-- `ID_VALUE`, where the platform fixes it; `none` leaves it the free value `Config.freeId`. -/
  idValue : Option Byte
  /-- `CPUINFO_VALUE`, where the platform fixes it; `none` leaves it the free value `Config.freeCpuinfo`. -/
  cpuinfoValue : Option Byte
  /-- `HAS_TIMER`. The spec defines no timer: nothing sets TM (R412). -/
  hasTimer : Bool
  /-- `RESET_PC`. -/
  resetPc : Counter
  /-- `AE_VECTOR`. -/
  aeVector : Nat
  /-- `LOOP0_REPEAT`. -/
  loop0Repeat : Loop0Repeat
  /-- `JRB_SIGNED`. -/
  jrbSigned : Bool
  deriving DecidableEq, Repr

/-- The machine of `State.reset`: every default of the table of R7. Where R7 says OPEN, the value under which the
instructions concerned run: OPMSB_MODE fast, the optional instructions present (the parameters of
spec/95_test_vectors.md), LOOP0_REPEAT repeat. DESIGN CHOICE, log entries 2, 3 and 4. -/
def Config.sdog : Config where
  pcw := 17
  jraw := 16
  memoryModel := .tiny
  dataBase := 65536
  memBytes := 131072
  userMode := true
  protLimit := 2048
  opmsbMode := .fast
  jsig121Option := false
  hasMulx := true
  hasMul := true
  hasLoadSave := false
  hasPmemacc := true
  macroBase := 512
  macroStride := 16
  extOpcodes := false
  versionValue := none
  idValue := none
  cpuinfoValue := none
  hasTimer := false
  resetPc := 0
  aeVector := 62
  loop0Repeat := .repeatSelf
  jrbSigned := true

/-- The byte a violating read delivers, and the byte a port read delivers where the environment's script has none
left (R72, R350: any value). The argument is the draw counter of the state, so no two draws are tied. Log entry 10. -/
opaque Config.freeByte : Nat → Byte

/-- Whether a fetch that overlaps the store of the instruction before it takes the old byte (R80: either value). Log entry 12. -/
opaque Config.freeBit : Nat → Bool

/-- What JRA holds after a step (R24: not stated). The argument is the state's cycle counter. Log entry 13. -/
opaque Config.freeJra : Nat → BitVec 16

/-- The value of GETVER on a platform that fixes none: any value, the same for a whole run (R155). Log entry 11. -/
opaque Config.freeVersion : Byte

/-- The value of GETID on a platform that fixes none: any value, the same for a whole run (R156). Log entry 11. -/
opaque Config.freeId : Byte

/-- The value of CPUINFO on a platform that fixes none: any value, the same for a whole run (R157). Log entry 11. -/
opaque Config.freeCpuinfo : Byte

end Sys2Proof
end

