-- ==== Sys2Proof/Syntax.lean ====
section
/-!
DEFINITION. The instructions: one constructor per mnemonic of spec/opcode_table.json, in the table's order, and what a
decoder answers (spec/30_encoding.md R102, R108 to R119).

The names say the operand form: `Direct` is `[m]` (or the bare target `m`), `Ptr` is `[A:B]` (or the bare target `A:B`),
`Page` is `[m:B]` (or the bare target `m:B`), `Imm` is an immediate `n`, `Rel` is a relative offset `n`, a final `A`, `B`
or `C` is a register operand. `m` is the 7-bit address or page, `n` the operand byte, `k` the 4-bit operand, `p` the hard
macro number.
-/

namespace Sys2Proof

/-- One constructor per row of the opcode table. A mnemonic that has one row for `n ≥ 0` and one for `n < 0` is one constructor. -/
inductive Instr where
  /-- NOP, its operand byte ignored (R141). -/
  | nop (xx : Byte)
  /-- MULX (R142). -/
  | mulx
  /-- LD A,B (R143). -/
  | ldAFromB
  /-- LD B,A (R144). -/
  | ldBFromA
  /-- SWAP (R145). -/
  | swap
  /-- MUL (R146). -/
  | mul
  /-- LD B,C (R147). -/
  | ldBFromC
  /-- GETPC (R148). -/
  | getpc
  /-- GETMC (R149). -/
  | getmc
  /-- SETPC (R150). -/
  | setpc
  /-- SETMC (R151). -/
  | setmc
  /-- USERMODE k (R152). -/
  | usermode (k : BitVec 4)
  /-- OFFSET k (R153). -/
  | offset (k : BitVec 4)
  /-- GETSTAT (R154). -/
  | getstat
  /-- GETVER (R155). -/
  | getver
  /-- GETID (R156). -/
  | getid
  /-- CPUINFO (R157). -/
  | cpuinfo
  /-- CLEAR k (R158). -/
  | clear (k : BitVec 4)
  /-- (LOAD) (R159). -/
  | load
  /-- (SAVE) (R159). -/
  | save
  /-- CLC (R160). -/
  | clc
  /-- PMEMACC (R161). -/
  | pmemacc
  /-- INT k (R162). -/
  | int (k : BitVec 4)
  /-- DISABLE (R163). -/
  | disable
  /-- ENABLE (R164). -/
  | enable
  /-- INPUTA (R165). -/
  | inputa
  /-- OUTPUTB (R166). -/
  | outputb
  /-- INOUT (R167). -/
  | inout
  /-- LD A,n (R191). -/
  | ldAImm (n : Byte)
  /-- LD B,n (R192). -/
  | ldBImm (n : Byte)
  /-- LD C,n (R193). -/
  | ldCImm (n : Byte)
  /-- SETFLAG [m] (R203). -/
  | setflagDirect (m : BitVec 7)
  /-- SETFLAG [A:B] (R203). -/
  | setflagPtr
  /-- SETFLAG [m:B] (R203). -/
  | setflagPage (m : BitVec 7)
  /-- ST [m],A (R205). -/
  | stDirectA (m : BitVec 7)
  /-- ST [m:B],A (R205). -/
  | stPageA (m : BitVec 7)
  /-- ST [m],B (R206). -/
  | stDirectB (m : BitVec 7)
  /-- ZERO [m] (R208). -/
  | zero (m : BitVec 7)
  /-- SHL [m] (R231). -/
  | shlDirect (m : BitVec 7)
  /-- SHL [A:B] (R231). -/
  | shlPtr
  /-- SHL [m:B] (R231). -/
  | shlPage (m : BitVec 7)
  /-- SHR [m] (R232). -/
  | shrDirect (m : BitVec 7)
  /-- SHR [A:B] (R232). -/
  | shrPtr
  /-- SHR [m:B] (R232). -/
  | shrPage (m : BitVec 7)
  /-- AND [m],A (R240). -/
  | andDirectA (m : BitVec 7)
  /-- AND [A:B],C (R240). -/
  | andPtrC
  /-- AND [m:B],A (R240). -/
  | andPageA (m : BitVec 7)
  /-- ST [m],C (R207). -/
  | stDirectC (m : BitVec 7)
  /-- ST [A:B],C (R207). -/
  | stPtrC
  /-- ST [m:B],C (R207). -/
  | stPageC (m : BitVec 7)
  /-- XOR [m],A (R241). -/
  | xorDirectA (m : BitVec 7)
  /-- XOR [A:B],C (R241). -/
  | xorPtrC
  /-- XOR [m:B],A (R241). -/
  | xorPageA (m : BitVec 7)
  /-- GETFLAG [m] (R204). -/
  | getflagDirect (m : BitVec 7)
  /-- GETFLAG [A:B] (R204). -/
  | getflagPtr
  /-- GETFLAG [m:B] (R204). -/
  | getflagPage (m : BitVec 7)
  /-- OR [m],A (R242). -/
  | orDirectA (m : BitVec 7)
  /-- OR [A:B],C (R242). -/
  | orPtrC
  /-- OR [m:B],A (R242). -/
  | orPageA (m : BitVec 7)
  /-- JMP m (R305). -/
  | jmpDirect (m : BitVec 7)
  /-- JMPC0 A:B (R306). -/
  | jmpC0
  /-- JMPC1 A:B (R341). -/
  | jmpC1
  /-- JMPZ0 A:B (R342). -/
  | jmpZ0
  /-- JMPZ1 A:B (R343). -/
  | jmpZ1
  /-- JMP A:B (R307). -/
  | jmpPtr
  /-- JMP m:B (R308). -/
  | jmpPage (m : BitVec 7)
  /-- BAL m (R310). -/
  | balDirect (m : BitVec 7)
  /-- BALC0 A:B (R311). -/
  | balC0
  /-- BALC1 A:B (R344). -/
  | balC1
  /-- BALZ0 A:B (R345). -/
  | balZ0
  /-- BALZ1 A:B (R346). -/
  | balZ1
  /-- BAL A:B (R312). -/
  | balPtr
  /-- BAL m:B (R313). -/
  | balPage (m : BitVec 7)
  /-- JR n (R315). -/
  | jrRel (n : Byte)
  /-- JR B (R315). -/
  | jrB
  /-- BR n (R316). -/
  | brRel (n : Byte)
  /-- BR B (R316). -/
  | brB
  /-- JRC0 n (R317). -/
  | jrC0Rel (n : Byte)
  /-- JRC0 B (R317). -/
  | jrC0B
  /-- BRC0 n (R318). -/
  | brC0Rel (n : Byte)
  /-- BRC0 B (R318). -/
  | brC0B
  /-- JRC1 n (R319). -/
  | jrC1Rel (n : Byte)
  /-- JRC1 B (R319). -/
  | jrC1B
  /-- BRC1 n (R320). -/
  | brC1Rel (n : Byte)
  /-- BRC1 B (R320). -/
  | brC1B
  /-- JRZ0 n (R321). -/
  | jrZ0Rel (n : Byte)
  /-- JRZ0 B (R321). -/
  | jrZ0B
  /-- BRZ0 n (R322). -/
  | brZ0Rel (n : Byte)
  /-- BRZ0 B (R322). -/
  | brZ0B
  /-- JRZ1 n (R323). -/
  | jrZ1Rel (n : Byte)
  /-- JRZ1 B (R323). -/
  | jrZ1B
  /-- BRZ1 n (R324). -/
  | brZ1Rel (n : Byte)
  /-- BRZ1 B (R324). -/
  | brZ1B
  /-- IN [m] (R351). -/
  | inDirect (m : BitVec 7)
  /-- IN [A:B] (R351). -/
  | inPtr
  /-- IN [m:B] (R351). -/
  | inPage (m : BitVec 7)
  /-- OUT [m] (R352). -/
  | outDirect (m : BitVec 7)
  /-- OUT [A:B] (R352). -/
  | outPtr
  /-- OUT [m:B] (R352). -/
  | outPage (m : BitVec 7)
  /-- RETI [m] (R420). -/
  | reti (m : BitVec 7)
  /-- INC [m] (R261). -/
  | incDirect (m : BitVec 7)
  /-- INC [A:B] (R261). -/
  | incPtr
  /-- INC [m:B] (R261). -/
  | incPage (m : BitVec 7)
  /-- INCC [m] (R262). -/
  | inccDirect (m : BitVec 7)
  /-- INCC [A:B] (R262). -/
  | inccPtr
  /-- INCC [m:B] (R262). -/
  | inccPage (m : BitVec 7)
  /-- INCX [m] (R263). -/
  | incxDirect (m : BitVec 7)
  /-- INCX [A:B] (R263). -/
  | incxPtr
  /-- INCX [m:B] (R263). -/
  | incxPage (m : BitVec 7)
  /-- INCXC [m] (R264). -/
  | incxcDirect (m : BitVec 7)
  /-- INCXC [A:B] (R264). -/
  | incxcPtr
  /-- INCXC [m:B] (R264). -/
  | incxcPage (m : BitVec 7)
  /-- ADD [m],A (R265). -/
  | addDirectA (m : BitVec 7)
  /-- ADD [A:B],C (R265). -/
  | addPtrC
  /-- ADD [m:B],A (R265). -/
  | addPageA (m : BitVec 7)
  /-- ADDC [m],A (R266). -/
  | addcDirectA (m : BitVec 7)
  /-- ADDC [A:B],C (R266). -/
  | addcPtrC
  /-- ADDC [m:B],A (R266). -/
  | addcPageA (m : BitVec 7)
  /-- ADD A,[m] (R267). -/
  | addADirect (m : BitVec 7)
  /-- ADD A,C (R267). -/
  | addAC
  /-- ADD A,[m:B] (R267). -/
  | addAPage (m : BitVec 7)
  /-- ADDC A,[m] (R268). -/
  | addcADirect (m : BitVec 7)
  /-- ADDC A,C (R268). -/
  | addcAC
  /-- ADDC A,[m:B] (R268). -/
  | addcAPage (m : BitVec 7)
  /-- SHLC [m] (R233). -/
  | shlcDirect (m : BitVec 7)
  /-- SHLC [A:B] (R233). -/
  | shlcPtr
  /-- SHLC [m:B] (R233). -/
  | shlcPage (m : BitVec 7)
  /-- SHRC [m] (R234). -/
  | shrcDirect (m : BitVec 7)
  /-- SHRC [A:B] (R234). -/
  | shrcPtr
  /-- SHRC [m:B] (R234). -/
  | shrcPage (m : BitVec 7)
  /-- LD A, [m] (R210). -/
  | ldADirect (m : BitVec 7)
  /-- LD A, [A:B] (R210). -/
  | ldAPtr
  /-- LD A, [m:B] (R210). -/
  | ldAPage (m : BitVec 7)
  /-- LD B, [m] (R211). -/
  | ldBDirect (m : BitVec 7)
  /-- LD B, [A:B] (R211). -/
  | ldBPtr
  /-- LD B, [m:B] (R211). -/
  | ldBPage (m : BitVec 7)
  /-- LD C, [m] (R212). -/
  | ldCDirect (m : BitVec 7)
  /-- LD C, [A:B] (R212). -/
  | ldCPtr
  /-- LD C, [m:B] (R212). -/
  | ldCPage (m : BitVec 7)
  /-- STACP [m] (R220). -/
  | stacpDirect (m : BitVec 7)
  /-- STACP [A:B] (R220). -/
  | stacpPtr
  /-- STACP [m:B] (R220). -/
  | stacpPage (m : BitVec 7)
  /-- STAB [m] (R221). -/
  | stabDirect (m : BitVec 7)
  /-- STAC [A:B] (R222). -/
  | stacPtr
  /-- STAB [m:B] (R221). -/
  | stabPage (m : BitVec 7)
  /-- STABP [m] (R225). -/
  | stabpDirect (m : BitVec 7)
  /-- STZCP [A:B] (R226). -/
  | stzcpPtr
  /-- STABP [m:B] (R225). -/
  | stabpPage (m : BitVec 7)
  /-- DEC [m] (R270). -/
  | decDirect (m : BitVec 7)
  /-- DEC [A:B] (R270). -/
  | decPtr
  /-- DEC [m:B] (R270). -/
  | decPage (m : BitVec 7)
  /-- DECC [m] (R271). -/
  | deccDirect (m : BitVec 7)
  /-- DECC [A:B] (R271). -/
  | deccPtr
  /-- DECC [m:B] (R271). -/
  | deccPage (m : BitVec 7)
  /-- DECX [m] (R272). -/
  | decxDirect (m : BitVec 7)
  /-- DECX [A:B] (R272). -/
  | decxPtr
  /-- DECX [m:B] (R272). -/
  | decxPage (m : BitVec 7)
  /-- DECXC [m] (R273). -/
  | decxcDirect (m : BitVec 7)
  /-- DECXC [A:B] (R273). -/
  | decxcPtr
  /-- DECXC [m:B] (R273). -/
  | decxcPage (m : BitVec 7)
  /-- SUB [m],A (R274). -/
  | subDirectA (m : BitVec 7)
  /-- SUB [A:B],C (R274). -/
  | subPtrC
  /-- SUB [m:B],A (R274). -/
  | subPageA (m : BitVec 7)
  /-- SUBC [m],A (R275). -/
  | subcDirectA (m : BitVec 7)
  /-- SUBC [A:B],C (R275). -/
  | subcPtrC
  /-- SUBC [m:B],A (R275). -/
  | subcPageA (m : BitVec 7)
  /-- SUB A,[m] (R276). -/
  | subADirect (m : BitVec 7)
  /-- SUB A,C (R276). -/
  | subAC
  /-- SUB A,[m:B] (R276). -/
  | subAPage (m : BitVec 7)
  /-- SUBC A,[m] (R277). -/
  | subcADirect (m : BitVec 7)
  /-- SUBC A,C (R277). -/
  | subcAC
  /-- SUBC A,[m:B] (R277). -/
  | subcAPage (m : BitVec 7)
  /-- LOOPDEC 0 (R331). -/
  | loopdecZero
  /-- LOOPDEC n (R330). -/
  | loopdecRel (n : Byte)
  /-- LOOPSHRC (R332). -/
  | loopshrc
  /-- LOOPZERO (R336). -/
  | loopzero
  /-- LOOPINC n (R335). -/
  | loopincRel (n : Byte)
  /-- LOOPSHLC (R337). -/
  | loopshlc
  /-- AND A,[m] (R245). -/
  | andADirect (m : BitVec 7)
  /-- AND A,C (R245). -/
  | andAC
  /-- AND A,[m:B] (R245). -/
  | andAPage (m : BitVec 7)
  /-- AND A,n (R246). -/
  | andAImm (n : Byte)
  /-- XOR A,[m] (R247). -/
  | xorADirect (m : BitVec 7)
  /-- XOR A,C (R247). -/
  | xorAC
  /-- XOR A,[m:B] (R247). -/
  | xorAPage (m : BitVec 7)
  /-- XOR A,n (R248). -/
  | xorAImm (n : Byte)
  /-- OR A,[m] (R249). -/
  | orADirect (m : BitVec 7)
  /-- OR A,C (R249). -/
  | orAC
  /-- OR A,[m:B] (R249). -/
  | orAPage (m : BitVec 7)
  /-- OR A,n (R250). -/
  | orAImm (n : Byte)
  /-- LDX A,n (R363). -/
  | ldxAImm (n : Byte)
  /-- LDX A,[m] (R364). -/
  | ldxADirect (m : BitVec 7)
  /-- LDX A,[A:B] (R364). -/
  | ldxAPtr
  /-- LDX A,[m:B] (R364). -/
  | ldxAPage (m : BitVec 7)
  /-- hard macro entry, number p, operand xx (R370). -/
  | hmacro (p : BitVec 6) (xx : Byte)
  /-- hard macro end: the word whose own instruction is selected by (opmsb, OP, xx) (R371). -/
  | macroEnd (opmsb : Bool) (op : BitVec 6) (xx : Byte)
  deriving DecidableEq, Repr

/-- What an instruction word with opmsb = 1 does to B in fast mode (R361): nothing beyond the instruction (`own`: opmsb = 0, and
the LDX rows), B kept (`keep`: class C), B incremented (`inc`: class P). Class F is refused by the decoder. -/
inductive BMod where
  | own
  | keep
  | inc
  deriving DecidableEq, Repr

/-- An instruction word read by R108: the instruction and the fast-mode effect on B. -/
structure Decoded where
  instr : Instr
  bmod  : BMod
  deriving DecidableEq, Repr

/-- Why a word is no instruction. Each is a REFUSE of the spec: the source gives the encoding no meaning and the machine has no
illegal-instruction trap (R12). -/
inductive DecodeError where
  /-- OP 0F and OP 1C (R112). -/
  | unusedOpcode (op : BitVec 6)
  /-- OP 01 with an `xx` that no row lists (R113, R168). -/
  | undefinedSubcode (xx : Byte)
  /-- USERMODE k with k > 1 (R152). -/
  | usermodeRange (k : BitVec 4)
  /-- OFFSET k with k > 3 (R153). -/
  | offsetRange (k : BitVec 4)
  /-- CLEAR k with k other than 1 (R158). -/
  | clearCause (k : BitVec 4)
  /-- OP 06 and OP 07 with xx = 127 (R113, R205, R206). -/
  | noStoreForm (op : BitVec 6)
  /-- OP 10 and OP 11 with xx = 126 (R325). -/
  | jumpOperand126 (op : BitVec 6)
  /-- OP 12 to 1B with xx = 0x7F, n = 127 (R325). -/
  | relativeOffset127 (op : BitVec 6)
  /-- OP 38 and OP 39 with xx = 0x80 (R338). -/
  | loopOffset128 (op : BitVec 6)
  /-- OP 1F with xx of 127 or above: RETI has only the direct form (R420). -/
  | retiForm (xx : Byte)
  /-- opmsb = 1 outside fast mode (R360). -/
  | opmsbRole
  /-- opmsb = 1 on an instruction that writes B other than by a step of one (R362). -/
  | opmsbOnBWriter (op : BitVec 6) (xx : Byte)
  /-- opmsb = 1 on a hard macro entry word (R362). -/
  | opmsbOnMacroEntry
  /-- A word with macro bit 1 while IF = 1 (R374). -/
  | macroInInterrupt
  /-- A word with bit 14 = 1 when EXT_OPCODES is true: no extended instruction is defined (R373). -/
  | extendedOpcode
  deriving DecidableEq, Repr

end Sys2Proof
end

