-- ==== Sys2Proof/WellFormed.lean ====
section
/-!
DEFINITION. Which instructions an encoding exists for: the ranges of the operands in spec/30_encoding.md R113 and the
rows of spec/opcode_table.json.
-/

namespace Sys2Proof

/-- The operands are ones the row of the opcode table admits: `m ≤ 126` in a direct form, `m ≤ 121` for `JMP m` and `BAL m`, no
`n = 127` and no `n = -128` in a relative branch, neither of them and no 0 in `LOOPDEC n` and `LOOPINC n`, `k ≤ 1` for
USERMODE, `k ≤ 3` for OFFSET, `k = 1` for CLEAR. -/
def Instr.wf (i : Instr) : Bool :=
  match i with
  | .nop _ => true
  | .mulx => true
  | .ldAFromB => true
  | .ldBFromA => true
  | .swap => true
  | .mul => true
  | .ldBFromC => true
  | .getpc => true
  | .getmc => true
  | .setpc => true
  | .setmc => true
  | .usermode k => decide (k.toNat ≤ 1)
  | .offset k => decide (k.toNat ≤ 3)
  | .getstat => true
  | .getver => true
  | .getid => true
  | .cpuinfo => true
  | .clear k => k == 1
  | .load => true
  | .save => true
  | .clc => true
  | .pmemacc => true
  | .int _ => true
  | .disable => true
  | .enable => true
  | .inputa => true
  | .outputb => true
  | .inout => true
  | .ldAImm _ => true
  | .ldBImm _ => true
  | .ldCImm _ => true
  | .setflagDirect m => m != 127
  | .setflagPtr => true
  | .setflagPage _ => true
  | .stDirectA m => m != 127
  | .stPageA _ => true
  | .stDirectB m => m != 127
  | .zero _ => true
  | .shlDirect m => m != 127
  | .shlPtr => true
  | .shlPage _ => true
  | .shrDirect m => m != 127
  | .shrPtr => true
  | .shrPage _ => true
  | .andDirectA m => m != 127
  | .andPtrC => true
  | .andPageA _ => true
  | .stDirectC m => m != 127
  | .stPtrC => true
  | .stPageC _ => true
  | .xorDirectA m => m != 127
  | .xorPtrC => true
  | .xorPageA _ => true
  | .getflagDirect m => m != 127
  | .getflagPtr => true
  | .getflagPage _ => true
  | .orDirectA m => m != 127
  | .orPtrC => true
  | .orPageA _ => true
  | .jmpDirect m => decide (m.toNat ≤ 121)
  | .jmpC0 => true
  | .jmpC1 => true
  | .jmpZ0 => true
  | .jmpZ1 => true
  | .jmpPtr => true
  | .jmpPage _ => true
  | .balDirect m => decide (m.toNat ≤ 121)
  | .balC0 => true
  | .balC1 => true
  | .balZ0 => true
  | .balZ1 => true
  | .balPtr => true
  | .balPage _ => true
  | .jrRel n => n != 0x7F#8 && n != 0x80#8
  | .jrB => true
  | .brRel n => n != 0x7F#8 && n != 0x80#8
  | .brB => true
  | .jrC0Rel n => n != 0x7F#8 && n != 0x80#8
  | .jrC0B => true
  | .brC0Rel n => n != 0x7F#8 && n != 0x80#8
  | .brC0B => true
  | .jrC1Rel n => n != 0x7F#8 && n != 0x80#8
  | .jrC1B => true
  | .brC1Rel n => n != 0x7F#8 && n != 0x80#8
  | .brC1B => true
  | .jrZ0Rel n => n != 0x7F#8 && n != 0x80#8
  | .jrZ0B => true
  | .brZ0Rel n => n != 0x7F#8 && n != 0x80#8
  | .brZ0B => true
  | .jrZ1Rel n => n != 0x7F#8 && n != 0x80#8
  | .jrZ1B => true
  | .brZ1Rel n => n != 0x7F#8 && n != 0x80#8
  | .brZ1B => true
  | .inDirect m => m != 127
  | .inPtr => true
  | .inPage _ => true
  | .outDirect m => m != 127
  | .outPtr => true
  | .outPage _ => true
  | .reti m => m != 127
  | .incDirect m => m != 127
  | .incPtr => true
  | .incPage _ => true
  | .inccDirect m => m != 127
  | .inccPtr => true
  | .inccPage _ => true
  | .incxDirect m => m != 127
  | .incxPtr => true
  | .incxPage _ => true
  | .incxcDirect m => m != 127
  | .incxcPtr => true
  | .incxcPage _ => true
  | .addDirectA m => m != 127
  | .addPtrC => true
  | .addPageA _ => true
  | .addcDirectA m => m != 127
  | .addcPtrC => true
  | .addcPageA _ => true
  | .addADirect m => m != 127
  | .addAC => true
  | .addAPage _ => true
  | .addcADirect m => m != 127
  | .addcAC => true
  | .addcAPage _ => true
  | .shlcDirect m => m != 127
  | .shlcPtr => true
  | .shlcPage _ => true
  | .shrcDirect m => m != 127
  | .shrcPtr => true
  | .shrcPage _ => true
  | .ldADirect m => m != 127
  | .ldAPtr => true
  | .ldAPage _ => true
  | .ldBDirect m => m != 127
  | .ldBPtr => true
  | .ldBPage _ => true
  | .ldCDirect m => m != 127
  | .ldCPtr => true
  | .ldCPage _ => true
  | .stacpDirect m => m != 127
  | .stacpPtr => true
  | .stacpPage _ => true
  | .stabDirect m => m != 127
  | .stacPtr => true
  | .stabPage _ => true
  | .stabpDirect m => m != 127
  | .stzcpPtr => true
  | .stabpPage _ => true
  | .decDirect m => m != 127
  | .decPtr => true
  | .decPage _ => true
  | .deccDirect m => m != 127
  | .deccPtr => true
  | .deccPage _ => true
  | .decxDirect m => m != 127
  | .decxPtr => true
  | .decxPage _ => true
  | .decxcDirect m => m != 127
  | .decxcPtr => true
  | .decxcPage _ => true
  | .subDirectA m => m != 127
  | .subPtrC => true
  | .subPageA _ => true
  | .subcDirectA m => m != 127
  | .subcPtrC => true
  | .subcPageA _ => true
  | .subADirect m => m != 127
  | .subAC => true
  | .subAPage _ => true
  | .subcADirect m => m != 127
  | .subcAC => true
  | .subcAPage _ => true
  | .loopdecZero => true
  | .loopdecRel n => n != 0#8 && n != 0x7F#8 && n != 0x80#8
  | .loopshrc => true
  | .loopzero => true
  | .loopincRel n => n != 0#8 && n != 0x7F#8 && n != 0x80#8
  | .loopshlc => true
  | .andADirect m => m != 127
  | .andAC => true
  | .andAPage _ => true
  | .andAImm _ => true
  | .xorADirect m => m != 127
  | .xorAC => true
  | .xorAPage _ => true
  | .xorAImm _ => true
  | .orADirect m => m != 127
  | .orAC => true
  | .orAPage _ => true
  | .orAImm _ => true
  | .ldxAImm _ => true
  | .ldxADirect m => m != 127
  | .ldxAPtr => true
  | .ldxAPage _ => true
  | .hmacro _ _ => true
  | .macroEnd _ _ _ => true

end Sys2Proof
end

