-- ==== Sys2Proof/Decode.lean ====
section
/-!
DEFINITION. The decoder, total on every word and refusing by name (spec/30_encoding.md R108 to R113,
spec/46_opmsb_hardmacro.md R360 to R374), and the encoder written from the same tables (R101, R109, R110, R118).
-/

namespace Sys2Proof

/-- `W = { opmsb, macro, OP[5:0], xx[7:0] }` (R101). -/
def instrWord (opmsb macroBit : Bool) (op : BitVec 6) (xx : Byte) : InstrWord :=
  BitVec.ofBool opmsb ++ BitVec.ofBool macroBit ++ op ++ xx

/-- Bit 15 (R101). -/
def opmsbOf (w : InstrWord) : Bool := w.getLsbD 15

/-- Bit 14 (R101). -/
def macroOf (w : InstrWord) : Bool := w.getLsbD 14

/-- Bits 13 to 8 (R101). -/
def opOf (w : InstrWord) : BitVec 6 := w.extractLsb' 8 6

/-- Bits 7 to 0 (R101). -/
def xxOf (w : InstrWord) : Byte := w.extractLsb' 0 8

/-- The word of two bytes of memory: the byte at the even address is `xx`, the next one `{opmsb, macro, OP}` (R74). -/
def wordOfBytes (first second : Byte) : InstrWord := second ++ first

/-- The 7-bit address or page of an operand byte: `xx` for `xx ≤ 126`, `xx - 128` for `xx ≥ 128` (R102). -/
def mOf (xx : Byte) : BitVec 7 := xx.extractLsb' 0 7

/-- Chooses by the three operand forms of R68: `xx ≤ 126`, `xx = 127`, `xx ≥ 128`. -/
def byForm {α : Type} (xx : Byte) (direct : BitVec 7 → α) (ptr : α) (page : BitVec 7 → α) : α :=
  if xx.toNat ≤ 126 then direct (mOf xx) else if xx.toNat = 127 then ptr else page (mOf xx)

/-- OP 10 and OP 11: `m ≤ 121`, the four conditional `A:B` forms at 122 to 125, nothing at 126, `A:B` at 127, `m:B` from 128 (R102, R305 to R313). -/
def decodeAbsolute (op : BitVec 6) (direct : BitVec 7 → Instr) (c0 c1 z0 z1 ptr : Instr) (page : BitVec 7 → Instr)
    (xx : Byte) : Except DecodeError Instr :=
  if xx.toNat ≤ 121 then .ok (direct (mOf xx))
  else if xx.toNat = 122 then .ok c0
  else if xx.toNat = 123 then .ok c1
  else if xx.toNat = 124 then .ok z0
  else if xx.toNat = 125 then .ok z1
  else if xx.toNat = 126 then .error (.jumpOperand126 op)
  else if xx.toNat = 127 then .ok ptr
  else .ok (page (mOf xx))

/-- OP 12 to 1B: 0x7F unusable, 0x80 the `B` form, every other value an offset (R102, R315, R325). -/
def decodeRelative (op : BitVec 6) (rel : Byte → Instr) (viaB : Instr) (xx : Byte) : Except DecodeError Instr :=
  if xx.toNat = 0x7F then .error (.relativeOffset127 op)
  else if xx.toNat = 0x80 then .ok viaB
  else .ok (rel xx)

/-- OP 38 and OP 39: 0 and 0x7F select their own instructions, 0x80 is excluded, every other value is an offset (R330 to R338). -/
def decodeLoop (op : BitVec 6) (atZero at127 : Instr) (rel : Byte → Instr) (xx : Byte) : Except DecodeError Instr :=
  if xx.toNat = 0 then .ok atZero
  else if xx.toNat = 0x7F then .ok at127
  else if xx.toNat = 0x80 then .error (.loopOffset128 op)
  else .ok (rel xx)

/-- The 4-bit operand `k = xx[3:0]` (R102). -/
def kOf (xx : Byte) : BitVec 4 := xx.extractLsb' 0 4

/-- The rows of OP 01 that have a 4-bit operand, chosen by the high nibble of `xx` (R110). -/
def decodeSystemK (xx : Byte) : Except DecodeError Instr :=
  match (xx.extractLsb' 4 4).toNat with
  | 0x3 => if (kOf xx).toNat ≤ 1 then .ok (.usermode (kOf xx)) else .error (.usermodeRange (kOf xx))
  | 0x4 => if (kOf xx).toNat ≤ 3 then .ok (.offset (kOf xx)) else .error (.offsetRange (kOf xx))
  | 0x6 => if kOf xx = 1 then .ok (.clear (kOf xx)) else .error (.clearCause (kOf xx))
  | 0xD => .ok (.int (kOf xx))
  | _ => .error (.undefinedSubcode xx)

/-- OP 01 (R110, R113, R168). -/
def decodeSystem (xx : Byte) : Except DecodeError Instr :=
  match xx.toNat with
  | 0x00 => .ok .mulx
  | 0x01 => .ok .ldAFromB
  | 0x02 => .ok .ldBFromA
  | 0x03 => .ok .swap
  | 0x04 => .ok .mul
  | 0x20 => .ok .ldBFromC
  | 0x21 => .ok .getpc
  | 0x22 => .ok .getmc
  | 0x24 => .ok .setpc
  | 0x28 => .ok .setmc
  | 0x51 => .ok .getstat
  | 0x52 => .ok .getver
  | 0x54 => .ok .getid
  | 0x58 => .ok .cpuinfo
  | 0xC1 => .ok .load
  | 0xC2 => .ok .save
  | 0xC4 => .ok .clc
  | 0xC8 => .ok .pmemacc
  | 0xE0 => .ok .disable
  | 0xE1 => .ok .enable
  | 0xF1 => .ok .inputa
  | 0xF2 => .ok .outputb
  | 0xF3 => .ok .inout
  | _ => decodeSystemK xx

/-- The instruction that `(OP, xx)` selects, with opmsb and macro taken as 0 (R108 step 3, R109). -/
def decodeOrdinary (op : BitVec 6) (xx : Byte) : Except DecodeError Instr :=
  match op.toNat with
  | 0x00 => .ok (.nop xx)
  | 0x01 => decodeSystem xx
  | 0x02 => .ok (.ldAImm xx)
  | 0x03 => .ok (.ldBImm xx)
  | 0x04 => .ok (.ldCImm xx)
  | 0x05 => .ok (byForm xx .setflagDirect .setflagPtr .setflagPage)
  | 0x06 => byForm xx (fun m => .ok (.stDirectA m)) (.error (.noStoreForm op)) (fun m => .ok (.stPageA m))
  | 0x07 => byForm xx (fun m => .ok (.stDirectB m)) (.error (.noStoreForm op)) (fun m => .ok (.zero m))
  | 0x08 => .ok (byForm xx .shlDirect .shlPtr .shlPage)
  | 0x09 => .ok (byForm xx .shrDirect .shrPtr .shrPage)
  | 0x0A => .ok (byForm xx .andDirectA .andPtrC .andPageA)
  | 0x0B => .ok (byForm xx .stDirectC .stPtrC .stPageC)
  | 0x0C => .ok (byForm xx .xorDirectA .xorPtrC .xorPageA)
  | 0x0D => .ok (byForm xx .getflagDirect .getflagPtr .getflagPage)
  | 0x0E => .ok (byForm xx .orDirectA .orPtrC .orPageA)
  | 0x10 => decodeAbsolute op .jmpDirect .jmpC0 .jmpC1 .jmpZ0 .jmpZ1 .jmpPtr .jmpPage xx
  | 0x11 => decodeAbsolute op .balDirect .balC0 .balC1 .balZ0 .balZ1 .balPtr .balPage xx
  | 0x12 => decodeRelative op .jrRel .jrB xx
  | 0x13 => decodeRelative op .brRel .brB xx
  | 0x14 => decodeRelative op .jrC0Rel .jrC0B xx
  | 0x15 => decodeRelative op .brC0Rel .brC0B xx
  | 0x16 => decodeRelative op .jrC1Rel .jrC1B xx
  | 0x17 => decodeRelative op .brC1Rel .brC1B xx
  | 0x18 => decodeRelative op .jrZ0Rel .jrZ0B xx
  | 0x19 => decodeRelative op .brZ0Rel .brZ0B xx
  | 0x1A => decodeRelative op .jrZ1Rel .jrZ1B xx
  | 0x1B => decodeRelative op .brZ1Rel .brZ1B xx
  | 0x1D => .ok (byForm xx .inDirect .inPtr .inPage)
  | 0x1E => .ok (byForm xx .outDirect .outPtr .outPage)
  | 0x1F => if xx.toNat ≤ 126 then .ok (.reti (mOf xx)) else .error (.retiForm xx)
  | 0x20 => .ok (byForm xx .incDirect .incPtr .incPage)
  | 0x21 => .ok (byForm xx .inccDirect .inccPtr .inccPage)
  | 0x22 => .ok (byForm xx .incxDirect .incxPtr .incxPage)
  | 0x23 => .ok (byForm xx .incxcDirect .incxcPtr .incxcPage)
  | 0x24 => .ok (byForm xx .addDirectA .addPtrC .addPageA)
  | 0x25 => .ok (byForm xx .addcDirectA .addcPtrC .addcPageA)
  | 0x26 => .ok (byForm xx .addADirect .addAC .addAPage)
  | 0x27 => .ok (byForm xx .addcADirect .addcAC .addcAPage)
  | 0x28 => .ok (byForm xx .shlcDirect .shlcPtr .shlcPage)
  | 0x29 => .ok (byForm xx .shrcDirect .shrcPtr .shrcPage)
  | 0x2A => .ok (byForm xx .ldADirect .ldAPtr .ldAPage)
  | 0x2B => .ok (byForm xx .ldBDirect .ldBPtr .ldBPage)
  | 0x2C => .ok (byForm xx .ldCDirect .ldCPtr .ldCPage)
  | 0x2D => .ok (byForm xx .stacpDirect .stacpPtr .stacpPage)
  | 0x2E => .ok (byForm xx .stabDirect .stacPtr .stabPage)
  | 0x2F => .ok (byForm xx .stabpDirect .stzcpPtr .stabpPage)
  | 0x30 => .ok (byForm xx .decDirect .decPtr .decPage)
  | 0x31 => .ok (byForm xx .deccDirect .deccPtr .deccPage)
  | 0x32 => .ok (byForm xx .decxDirect .decxPtr .decxPage)
  | 0x33 => .ok (byForm xx .decxcDirect .decxcPtr .decxcPage)
  | 0x34 => .ok (byForm xx .subDirectA .subPtrC .subPageA)
  | 0x35 => .ok (byForm xx .subcDirectA .subcPtrC .subcPageA)
  | 0x36 => .ok (byForm xx .subADirect .subAC .subAPage)
  | 0x37 => .ok (byForm xx .subcADirect .subcAC .subcAPage)
  | 0x38 => decodeLoop op .loopdecZero .loopshrc .loopdecRel xx
  | 0x39 => decodeLoop op .loopzero .loopshlc .loopincRel xx
  | 0x3A => .ok (byForm xx .andADirect .andAC .andAPage)
  | 0x3B => .ok (.andAImm xx)
  | 0x3C => .ok (byForm xx .xorADirect .xorAC .xorAPage)
  | 0x3D => .ok (.xorAImm xx)
  | 0x3E => .ok (byForm xx .orADirect .orAC .orAPage)
  | 0x3F => .ok (.orAImm xx)
  | _ => .error (.unusedOpcode op)

/-- Class C of R361: the instructions that step B by one (STACP, STABP, STZCP and the five loops), by OP code. -/
def stepsB (op : BitVec 6) : Bool :=
  op == 0x2D || op == 0x2F || op == 0x38 || op == 0x39

/-- Class F of R361: the instructions that write B otherwise (`LD B,A`, SWAP, `LD B,C`, GETPC, GETMC, the four X forms, BAL and
the linking relative branches), by OP code and sub-code (R362). `LD B,n` and `LD B,[..]` are the LDX rows under opmsb = 1. -/
def writesB (op : BitVec 6) (xx : Byte) : Bool :=
  (op == 0x01 && (xx == 0x02 || xx == 0x03 || xx == 0x20 || xx == 0x21 || xx == 0x22))
    || op == 0x22 || op == 0x23 || op == 0x32 || op == 0x33
    || op == 0x11 || op == 0x13 || op == 0x15 || op == 0x17 || op == 0x19 || op == 0x1B

/-- opmsb = 1 in fast mode on the instruction that `(OP, xx)` selects: the classes of R361. -/
def decodeFast (op : BitVec 6) (xx : Byte) : Except DecodeError Decoded :=
  if op == 0x03 then .ok ⟨.ldxAImm xx, .own⟩
  else if op == 0x2B then .ok ⟨byForm xx .ldxADirect .ldxAPtr .ldxAPage, .own⟩
  else
    match decodeOrdinary op xx with
    | .error e => .error e
    | .ok i =>
      if writesB op xx then .error (.opmsbOnBWriter op xx)
      else .ok ⟨i, if stepsB op then .keep else .inc⟩

/-- R108 steps 2 and 3: the instruction that `(opmsb, OP, xx)` selects with the macro bit taken as 0. -/
def decodeUnmacroed (c : Config) (opmsb : Bool) (op : BitVec 6) (xx : Byte) : Except DecodeError Decoded :=
  if opmsb then
    (if c.opmsbMode = .fast then decodeFast op xx else .error .opmsbRole)
  else
    match decodeOrdinary op xx with
    | .error e => .error e
    | .ok i => .ok ⟨i, .own⟩

/-- R108, for the parameters `c`, with MF = `mf` and IF = `ifBit`. The end word of a hard macro is read as `macroEnd`, whose
meaning reads its own instruction (R371). -/
def decode (c : Config) (mf ifBit : Bool) (w : InstrWord) : Except DecodeError Decoded :=
  if macroOf w then
    if c.extOpcodes then .error .extendedOpcode
    else if ifBit then .error .macroInInterrupt
    else if mf then .ok ⟨.macroEnd (opmsbOf w) (opOf w) (xxOf w), .own⟩
    else if opmsbOf w then .error .opmsbOnMacroEntry
    else .ok ⟨.hmacro (opOf w) (xxOf w), .own⟩
  else decodeUnmacroed c (opmsbOf w) (opOf w) (xxOf w)

/-- The word of an instruction, with opmsb = 0 but for the LDX rows and a hard macro end that has it (R109, R110, R118). -/
def encode (i : Instr) : InstrWord :=
  match i with
  | .nop xx => instrWord false false 0x00 xx
  | .mulx => instrWord false false 0x01 0x00#8
  | .ldAFromB => instrWord false false 0x01 0x01#8
  | .ldBFromA => instrWord false false 0x01 0x02#8
  | .swap => instrWord false false 0x01 0x03#8
  | .mul => instrWord false false 0x01 0x04#8
  | .ldBFromC => instrWord false false 0x01 0x20#8
  | .getpc => instrWord false false 0x01 0x21#8
  | .getmc => instrWord false false 0x01 0x22#8
  | .setpc => instrWord false false 0x01 0x24#8
  | .setmc => instrWord false false 0x01 0x28#8
  | .usermode k => instrWord false false 0x01 (0x3#4 ++ k)
  | .offset k => instrWord false false 0x01 (0x4#4 ++ k)
  | .getstat => instrWord false false 0x01 0x51#8
  | .getver => instrWord false false 0x01 0x52#8
  | .getid => instrWord false false 0x01 0x54#8
  | .cpuinfo => instrWord false false 0x01 0x58#8
  | .clear k => instrWord false false 0x01 (0x6#4 ++ k)
  | .load => instrWord false false 0x01 0xC1#8
  | .save => instrWord false false 0x01 0xC2#8
  | .clc => instrWord false false 0x01 0xC4#8
  | .pmemacc => instrWord false false 0x01 0xC8#8
  | .int k => instrWord false false 0x01 (0xD#4 ++ k)
  | .disable => instrWord false false 0x01 0xE0#8
  | .enable => instrWord false false 0x01 0xE1#8
  | .inputa => instrWord false false 0x01 0xF1#8
  | .outputb => instrWord false false 0x01 0xF2#8
  | .inout => instrWord false false 0x01 0xF3#8
  | .ldAImm n => instrWord false false 0x02 n
  | .ldBImm n => instrWord false false 0x03 n
  | .ldCImm n => instrWord false false 0x04 n
  | .setflagDirect m => instrWord false false 0x05 (0#1 ++ m)
  | .setflagPtr => instrWord false false 0x05 0x7F#8
  | .setflagPage m => instrWord false false 0x05 (1#1 ++ m)
  | .stDirectA m => instrWord false false 0x06 (0#1 ++ m)
  | .stPageA m => instrWord false false 0x06 (1#1 ++ m)
  | .stDirectB m => instrWord false false 0x07 (0#1 ++ m)
  | .zero m => instrWord false false 0x07 (1#1 ++ m)
  | .shlDirect m => instrWord false false 0x08 (0#1 ++ m)
  | .shlPtr => instrWord false false 0x08 0x7F#8
  | .shlPage m => instrWord false false 0x08 (1#1 ++ m)
  | .shrDirect m => instrWord false false 0x09 (0#1 ++ m)
  | .shrPtr => instrWord false false 0x09 0x7F#8
  | .shrPage m => instrWord false false 0x09 (1#1 ++ m)
  | .andDirectA m => instrWord false false 0x0A (0#1 ++ m)
  | .andPtrC => instrWord false false 0x0A 0x7F#8
  | .andPageA m => instrWord false false 0x0A (1#1 ++ m)
  | .stDirectC m => instrWord false false 0x0B (0#1 ++ m)
  | .stPtrC => instrWord false false 0x0B 0x7F#8
  | .stPageC m => instrWord false false 0x0B (1#1 ++ m)
  | .xorDirectA m => instrWord false false 0x0C (0#1 ++ m)
  | .xorPtrC => instrWord false false 0x0C 0x7F#8
  | .xorPageA m => instrWord false false 0x0C (1#1 ++ m)
  | .getflagDirect m => instrWord false false 0x0D (0#1 ++ m)
  | .getflagPtr => instrWord false false 0x0D 0x7F#8
  | .getflagPage m => instrWord false false 0x0D (1#1 ++ m)
  | .orDirectA m => instrWord false false 0x0E (0#1 ++ m)
  | .orPtrC => instrWord false false 0x0E 0x7F#8
  | .orPageA m => instrWord false false 0x0E (1#1 ++ m)
  | .jmpDirect m => instrWord false false 0x10 (0#1 ++ m)
  | .jmpC0 => instrWord false false 0x10 0x7A#8
  | .jmpC1 => instrWord false false 0x10 0x7B#8
  | .jmpZ0 => instrWord false false 0x10 0x7C#8
  | .jmpZ1 => instrWord false false 0x10 0x7D#8
  | .jmpPtr => instrWord false false 0x10 0x7F#8
  | .jmpPage m => instrWord false false 0x10 (1#1 ++ m)
  | .balDirect m => instrWord false false 0x11 (0#1 ++ m)
  | .balC0 => instrWord false false 0x11 0x7A#8
  | .balC1 => instrWord false false 0x11 0x7B#8
  | .balZ0 => instrWord false false 0x11 0x7C#8
  | .balZ1 => instrWord false false 0x11 0x7D#8
  | .balPtr => instrWord false false 0x11 0x7F#8
  | .balPage m => instrWord false false 0x11 (1#1 ++ m)
  | .jrRel n => instrWord false false 0x12 n
  | .jrB => instrWord false false 0x12 0x80#8
  | .brRel n => instrWord false false 0x13 n
  | .brB => instrWord false false 0x13 0x80#8
  | .jrC0Rel n => instrWord false false 0x14 n
  | .jrC0B => instrWord false false 0x14 0x80#8
  | .brC0Rel n => instrWord false false 0x15 n
  | .brC0B => instrWord false false 0x15 0x80#8
  | .jrC1Rel n => instrWord false false 0x16 n
  | .jrC1B => instrWord false false 0x16 0x80#8
  | .brC1Rel n => instrWord false false 0x17 n
  | .brC1B => instrWord false false 0x17 0x80#8
  | .jrZ0Rel n => instrWord false false 0x18 n
  | .jrZ0B => instrWord false false 0x18 0x80#8
  | .brZ0Rel n => instrWord false false 0x19 n
  | .brZ0B => instrWord false false 0x19 0x80#8
  | .jrZ1Rel n => instrWord false false 0x1A n
  | .jrZ1B => instrWord false false 0x1A 0x80#8
  | .brZ1Rel n => instrWord false false 0x1B n
  | .brZ1B => instrWord false false 0x1B 0x80#8
  | .inDirect m => instrWord false false 0x1D (0#1 ++ m)
  | .inPtr => instrWord false false 0x1D 0x7F#8
  | .inPage m => instrWord false false 0x1D (1#1 ++ m)
  | .outDirect m => instrWord false false 0x1E (0#1 ++ m)
  | .outPtr => instrWord false false 0x1E 0x7F#8
  | .outPage m => instrWord false false 0x1E (1#1 ++ m)
  | .reti m => instrWord false false 0x1F (0#1 ++ m)
  | .incDirect m => instrWord false false 0x20 (0#1 ++ m)
  | .incPtr => instrWord false false 0x20 0x7F#8
  | .incPage m => instrWord false false 0x20 (1#1 ++ m)
  | .inccDirect m => instrWord false false 0x21 (0#1 ++ m)
  | .inccPtr => instrWord false false 0x21 0x7F#8
  | .inccPage m => instrWord false false 0x21 (1#1 ++ m)
  | .incxDirect m => instrWord false false 0x22 (0#1 ++ m)
  | .incxPtr => instrWord false false 0x22 0x7F#8
  | .incxPage m => instrWord false false 0x22 (1#1 ++ m)
  | .incxcDirect m => instrWord false false 0x23 (0#1 ++ m)
  | .incxcPtr => instrWord false false 0x23 0x7F#8
  | .incxcPage m => instrWord false false 0x23 (1#1 ++ m)
  | .addDirectA m => instrWord false false 0x24 (0#1 ++ m)
  | .addPtrC => instrWord false false 0x24 0x7F#8
  | .addPageA m => instrWord false false 0x24 (1#1 ++ m)
  | .addcDirectA m => instrWord false false 0x25 (0#1 ++ m)
  | .addcPtrC => instrWord false false 0x25 0x7F#8
  | .addcPageA m => instrWord false false 0x25 (1#1 ++ m)
  | .addADirect m => instrWord false false 0x26 (0#1 ++ m)
  | .addAC => instrWord false false 0x26 0x7F#8
  | .addAPage m => instrWord false false 0x26 (1#1 ++ m)
  | .addcADirect m => instrWord false false 0x27 (0#1 ++ m)
  | .addcAC => instrWord false false 0x27 0x7F#8
  | .addcAPage m => instrWord false false 0x27 (1#1 ++ m)
  | .shlcDirect m => instrWord false false 0x28 (0#1 ++ m)
  | .shlcPtr => instrWord false false 0x28 0x7F#8
  | .shlcPage m => instrWord false false 0x28 (1#1 ++ m)
  | .shrcDirect m => instrWord false false 0x29 (0#1 ++ m)
  | .shrcPtr => instrWord false false 0x29 0x7F#8
  | .shrcPage m => instrWord false false 0x29 (1#1 ++ m)
  | .ldADirect m => instrWord false false 0x2A (0#1 ++ m)
  | .ldAPtr => instrWord false false 0x2A 0x7F#8
  | .ldAPage m => instrWord false false 0x2A (1#1 ++ m)
  | .ldBDirect m => instrWord false false 0x2B (0#1 ++ m)
  | .ldBPtr => instrWord false false 0x2B 0x7F#8
  | .ldBPage m => instrWord false false 0x2B (1#1 ++ m)
  | .ldCDirect m => instrWord false false 0x2C (0#1 ++ m)
  | .ldCPtr => instrWord false false 0x2C 0x7F#8
  | .ldCPage m => instrWord false false 0x2C (1#1 ++ m)
  | .stacpDirect m => instrWord false false 0x2D (0#1 ++ m)
  | .stacpPtr => instrWord false false 0x2D 0x7F#8
  | .stacpPage m => instrWord false false 0x2D (1#1 ++ m)
  | .stabDirect m => instrWord false false 0x2E (0#1 ++ m)
  | .stacPtr => instrWord false false 0x2E 0x7F#8
  | .stabPage m => instrWord false false 0x2E (1#1 ++ m)
  | .stabpDirect m => instrWord false false 0x2F (0#1 ++ m)
  | .stzcpPtr => instrWord false false 0x2F 0x7F#8
  | .stabpPage m => instrWord false false 0x2F (1#1 ++ m)
  | .decDirect m => instrWord false false 0x30 (0#1 ++ m)
  | .decPtr => instrWord false false 0x30 0x7F#8
  | .decPage m => instrWord false false 0x30 (1#1 ++ m)
  | .deccDirect m => instrWord false false 0x31 (0#1 ++ m)
  | .deccPtr => instrWord false false 0x31 0x7F#8
  | .deccPage m => instrWord false false 0x31 (1#1 ++ m)
  | .decxDirect m => instrWord false false 0x32 (0#1 ++ m)
  | .decxPtr => instrWord false false 0x32 0x7F#8
  | .decxPage m => instrWord false false 0x32 (1#1 ++ m)
  | .decxcDirect m => instrWord false false 0x33 (0#1 ++ m)
  | .decxcPtr => instrWord false false 0x33 0x7F#8
  | .decxcPage m => instrWord false false 0x33 (1#1 ++ m)
  | .subDirectA m => instrWord false false 0x34 (0#1 ++ m)
  | .subPtrC => instrWord false false 0x34 0x7F#8
  | .subPageA m => instrWord false false 0x34 (1#1 ++ m)
  | .subcDirectA m => instrWord false false 0x35 (0#1 ++ m)
  | .subcPtrC => instrWord false false 0x35 0x7F#8
  | .subcPageA m => instrWord false false 0x35 (1#1 ++ m)
  | .subADirect m => instrWord false false 0x36 (0#1 ++ m)
  | .subAC => instrWord false false 0x36 0x7F#8
  | .subAPage m => instrWord false false 0x36 (1#1 ++ m)
  | .subcADirect m => instrWord false false 0x37 (0#1 ++ m)
  | .subcAC => instrWord false false 0x37 0x7F#8
  | .subcAPage m => instrWord false false 0x37 (1#1 ++ m)
  | .loopdecZero => instrWord false false 0x38 0x00#8
  | .loopdecRel n => instrWord false false 0x38 n
  | .loopshrc => instrWord false false 0x38 0x7F#8
  | .loopzero => instrWord false false 0x39 0x00#8
  | .loopincRel n => instrWord false false 0x39 n
  | .loopshlc => instrWord false false 0x39 0x7F#8
  | .andADirect m => instrWord false false 0x3A (0#1 ++ m)
  | .andAC => instrWord false false 0x3A 0x7F#8
  | .andAPage m => instrWord false false 0x3A (1#1 ++ m)
  | .andAImm n => instrWord false false 0x3B n
  | .xorADirect m => instrWord false false 0x3C (0#1 ++ m)
  | .xorAC => instrWord false false 0x3C 0x7F#8
  | .xorAPage m => instrWord false false 0x3C (1#1 ++ m)
  | .xorAImm n => instrWord false false 0x3D n
  | .orADirect m => instrWord false false 0x3E (0#1 ++ m)
  | .orAC => instrWord false false 0x3E 0x7F#8
  | .orAPage m => instrWord false false 0x3E (1#1 ++ m)
  | .orAImm n => instrWord false false 0x3F n
  | .ldxAImm n => instrWord true false 0x03 n
  | .ldxADirect m => instrWord true false 0x2B (0#1 ++ m)
  | .ldxAPtr => instrWord true false 0x2B 0x7F#8
  | .ldxAPage m => instrWord true false 0x2B (1#1 ++ m)
  | .hmacro p xx => instrWord false true p xx
  | .macroEnd opmsb op xx => instrWord opmsb true op xx

/-- The word with opmsb = 1 (R361). -/
def withOpmsb (w : InstrWord) : InstrWord := w ||| 0x8000#16

/-- The two bytes of a table number of `nbits` bits, in memory order: bits 7 to 0 at the even address, bits 15 to 8 after it (R74). -/
def tableBytes (nbits w : Nat) : Byte × Byte :=
  (BitVec.ofNat 8 (w % 2 ^ nbits), BitVec.ofNat 8 (w % 2 ^ nbits / 256))

/-- What the decoder reads from the table number `w`, with the parameters and the MF and IF of the reset state. -/
def decodeTableWord (nbits w : Nat) : Option Instr :=
  match decode Config.sdog false false (wordOfBytes (tableBytes nbits w).1 (tableBytes nbits w).2) with
  | .ok d => some d.instr
  | .error _ => none

end Sys2Proof
end

