-- ==== Sys2Proof/Machine/State.lean ====
section
/-!
DEFINITION. The state of the machine, as plain data (spec/10_state.md), the reasons a step can stop, and the state after reset
(R44, R450). INVENTORY.md lists every field with the rule that names it and its reset value.
-/

namespace Sys2Proof.Machine

open Sys2Proof

/-- The levels of the external inputs, supplied by the environment at each instruction boundary (R42, R401, R309). -/
structure Lines where
  int0 : Bool
  int1 : Bool
  jsig121 : Bool
  deriving DecidableEq, Repr

/-- An event of the port space (R350). -/
inductive IoEvent where
  /-- `In(p)`: the port read that delivered `v`. -/
  | input (port v : Byte)
  /-- `Out(p, v)`. -/
  | output (port v : Byte)
  deriving DecidableEq, Repr

/-- The machine. -/
structure State where
  /-- The implementation's parameters (R7). No step changes them. -/
  cfg : Config
  /-- General register A (R20). -/
  a : Byte
  /-- General register B (R20). -/
  b : Byte
  /-- Loop-control register C (R20). -/
  c : Byte
  /-- Program counter (R23). -/
  pc : Counter
  /-- Millicode counter (R23). -/
  mc : Counter
  /-- Interrupt counter (R23). -/
  ic : Counter
  /-- Relative branch address (R24). No instruction reads it. -/
  jra : BitVec 16
  /-- Zero flag, flag bit 0 (R30). -/
  zf : Bool
  /-- Milli flag, flag bit 1 (R32). -/
  mf : Bool
  /-- User-mode flag, flag bit 2 (R33). -/
  uf : Bool
  /-- Offset OF, flag bits 4 and 3 (R34). -/
  ofBits : BitVec 2
  /-- Carry flag, flag bit 7 (R31). -/
  cf : Bool
  /-- Access violation, status bit 0 (R37). -/
  ae : Bool
  /-- Timer interrupt, status bit 1 (R38). -/
  tm : Bool
  /-- Interrupt enable, status bit 7 (R39). -/
  ef : Bool
  /-- The in-interrupt bit IF (R40). -/
  ifBit : Bool
  /-- The PMEMACC-pending bit PACC (R41). -/
  pacc : Bool
  /-- Physical memory: the bytes that differ from `unlistedByte`, by strictly rising address (R62). -/
  mem : List Host.Cell
  /-- Environment: the levels presented now (R42). -/
  lines : Lines
  /-- Environment: the levels presented at the boundaries after this one. Once it is used up the levels stay. -/
  lineScript : List Lines
  /-- Environment: the bytes the next port reads deliver (R350). Once it is used up a port read delivers a free value. -/
  portIn : List Byte
  /-- Observation: the port events so far, in program order (R350). -/
  io : List IoEvent
  /-- Model: `pacc` of R28, the PACC consumed by the instruction that executes now. False between steps. -/
  paccNow : Bool
  /-- Model: the physical address and the old byte of the latest store of the instruction before, for the fetch that may still see it (R80, R461). -/
  stale : Option Host.Cell
  /-- Model: how many free values have been drawn. -/
  draws : Nat
  /-- Observation: clock cycles, 4 a step (R470). -/
  cycles : Nat
  deriving DecidableEq, Repr

/-- The faults that stop the machine: none. A rule ends in a next state, in a raised AccessViolation, which is itself a next
state, or in a REFUSE (R12). -/
inductive Fault where
  deriving DecidableEq, Repr

/-- Why a situation has no meaning. Each is a REFUSE of the spec (R12): it is no trap of the machine. All are safe: the model stops
where the hardware does something the source does not describe. -/
inductive Refusal where
  /-- The instruction has no meaning in the model yet. Raised by `exec` only. -/
  | notModelled (mnemonic : String)
  /-- The word is no instruction. Raised by the instruction cycle, and by a hard macro end for its own instruction. -/
  | encoding (e : DecodeError)
  /-- A fetch, read or write of a physical address `p` at or above MEM_BYTES: `REFUSE(address outside installed memory)` (R63).
  Raised by instruction fetch and by every instruction that accesses data memory. -/
  | absentMemory (p : Nat)
  /-- MULX, MUL or PMEMACC on an implementation without it (R142, R146, R161). -/
  | optionAbsent
  /-- (LOAD) and (SAVE): no operation is described anywhere (R159). -/
  | loadSaveUndescribed
  /-- USERMODE k with k > 1 (R152). The decoder does not produce it. -/
  | usermodeRange
  /-- OFFSET k with k > 3 (R153). The decoder does not produce it. -/
  | offsetRange
  /-- CLEAR k with k other than 1 (R158). The decoder does not produce it. -/
  | clearCause
  /-- INT while IF = 1 (R407, R408). -/
  | intInInterrupt
  /-- A hard macro word while IF = 1 (R374). -/
  | macroInInterrupt
  /-- A hard macro entry while MF = 1 (R463). The decoder does not produce it there. -/
  | macroInMillicode
  /-- A hard macro end while MF = 0. The decoder does not produce it there (R371). -/
  | macroEndOutsideMillicode
  /-- A hard macro end whose own instruction is a branch, a loop, SETMC, INT or RETI (R371). -/
  | macroEndForbidden
  /-- RETI while IF = 0 (R420). -/
  | retiOutsideInterrupt
  /-- SETFLAG or RETI of a byte in memory whose bit 1 differs from MF (R203, R420). -/
  | flagByteChangesMf
  /-- LOOPDEC 0, LOOPZERO, LOOPSHRC, LOOPSHLC under LOOP0_REPEAT = refuse (R331). -/
  | loop0Open
  deriving DecidableEq, Repr

/-- What an instruction or a step answers. -/
abbrev Out := Host.Outcome State Fault Refusal

/-- The machine right after reset, for the parameters `cfg` (R44, R450). PC is RESET_PC; MF, UF, OF, AE, TM, EF, IF and PACC are 0, as
R44 says. A, B, C, ZF, CF, MC, IC, JRA are "unspecified" there: 0 is the model's value (DESIGN CHOICE, log entry 6). Nothing is
loaded, no line is presented, JSIG121 is 0, no port input is scripted (log entries 7, 8, 9). -/
def State.resetWith (cfg : Config) : State where
  cfg := cfg
  a := 0
  b := 0
  c := 0
  pc := cfg.resetPc
  mc := 0
  ic := 0
  jra := 0
  zf := false
  mf := false
  uf := false
  ofBits := 0
  cf := false
  ae := false
  tm := false
  ef := false
  ifBit := false
  pacc := false
  mem := []
  lines := ⟨false, false, false⟩
  lineScript := []
  portIn := []
  io := []
  paccNow := false
  stale := none
  draws := 0
  cycles := 0

/-- The machine right after reset, with the default parameters. -/
def State.reset : State := State.resetWith Config.sdog

end Sys2Proof.Machine
end

