-- ==== Sys2Proof/Machine/Memory.lean ====
section
/-!
DEFINITION. Physical memory as a list of cells in one canonical form: addresses strictly rising, and no byte equal to
what an unlisted address reads as. Equal memories are equal lists.
-/

namespace Sys2Proof.Machine

open Sys2Proof

/-- What an address that nothing has written reads as. The source does not say what memory holds where nothing was loaded (R44);
0 is the model's byte. DESIGN CHOICE, unsafe, log entry 7. -/
def unlistedByte : Byte := 0

/-- The byte at an address. -/
def Memory.read (mem : List Host.Cell) (p : Nat) : Byte :=
  match mem with
  | [] => unlistedByte
  | (q, v) :: rest => if q = p then v else Memory.read rest p

/-- The list without an address. -/
def Memory.erase (mem : List Host.Cell) (p : Nat) : List Host.Cell :=
  match mem with
  | [] => []
  | (q, v) :: rest => if q = p then Memory.erase rest p else (q, v) :: Memory.erase rest p

/-- The list with `v` at an address, in rising order. -/
def Memory.insert (mem : List Host.Cell) (p : Nat) (v : Byte) : List Host.Cell :=
  match mem with
  | [] => [(p, v)]
  | (q, w) :: rest =>
    if q < p then (q, w) :: Memory.insert rest p v
    else if q = p then (p, v) :: rest
    else (p, v) :: (q, w) :: rest

/-- The memory with `v` at an address: writing what an unlisted address reads as removes the entry. -/
def Memory.write (mem : List Host.Cell) (p : Nat) (v : Byte) : List Host.Cell :=
  if v = unlistedByte then Memory.erase mem p else Memory.insert mem p v

/-- The canonical form. -/
def Memory.wf (mem : List Host.Cell) : Bool :=
  match mem with
  | [] => true
  | (q, v) :: rest => v != unlistedByte && rest.all (fun cell => decide (q < cell.1)) && Memory.wf rest

/-- Every listed address is below `n`. -/
def Memory.below (n : Nat) (mem : List Host.Cell) : Bool :=
  mem.all (fun cell => decide (cell.1 < n))

end Sys2Proof.Machine
end

