-- ==== Sys2Proof/Machine/Ops.lean ====
section
/-!
DEFINITION. The named operations over registers, counters, memory, ports and the interrupt mechanism. Every meaning is
written over them. An update gives each field it may change an expression, so that every other field is the old one by
definition.
-/

namespace Sys2Proof.Machine

open Sys2Proof

/-- Goes on with what an operation answered. -/
def onNext {α β : Type} (r : Host.Outcome α Fault Refusal) (k : α → Host.Outcome β Fault Refusal) :
    Host.Outcome β Fault Refusal :=
  match r with
  | .next x => k x
  | .fault e => .fault e
  | .refused e => .refused e

/-! ### Counters (R23, R27, R28, R29) -/

/-- A value written to a counter, reduced modulo `2 ^ PCW` (R29). -/
def wrapCtr (cfg : Config) (n : Nat) : Counter := BitVec.ofNat 17 (n % 2 ^ cfg.pcw)

/-- The active counter (R27). While an instruction executes it holds `nxt` (R28). -/
def ctr (s : State) : Counter := if s.ifBit then s.ic else if s.mf then s.mc else s.pc

/-- The address of the second byte of the instruction at the active counter (R28). -/
def ctrSecond (s : State) : Counter := wrapCtr s.cfg ((ctr s).toNat + 1)

/-- A write of the active counter: the other two keep their values (R27). -/
def setCtr (s : State) (v : Counter) : State :=
  { s with
    ic := if s.ifBit then v else s.ic
    mc := if !s.ifBit && s.mf then v else s.mc
    pc := if !s.ifBit && !s.mf then v else s.pc }

/-- The instruction index of a counter value, as GETPC, GETMC and the link take it (R103, R148, R302). -/
def ctrIndex (v : Counter) : DataAddr := BitVec.ofNat 16 (v.toNat / 2)

/-- The byte address of an instruction index (R103, R301). -/
def indexTarget (cfg : Config) (index : DataAddr) : Counter := wrapCtr cfg (index.toNat * 2)

/-- `X:Y`, the first name being the high byte (R9). -/
def pair (hi lo : Byte) : DataAddr := hi ++ lo

/-- `A:B <- v` (R9). -/
def setAB (s : State) (v : DataAddr) : State :=
  { s with
    a := v.extractLsb' 8 8
    b := v.extractLsb' 0 8 }

/-! ### Modes and flags that user mode gates (R33, R37) -/

/-- UF as it reads: 0 where USER_MODE is false (R33). -/
def inUser (s : State) : Bool := s.cfg.userMode && s.uf

/-- A write of UF, ignored where USER_MODE is false (R33, R152). -/
def setUser (s : State) (k : Bool) : State := { s with uf := if s.cfg.userMode then k else s.uf }

/-- AE as it reads: 0 where USER_MODE is false (R37). -/
def aeReads (s : State) : Bool := s.cfg.userMode && s.ae

/-- TM as it reads: 0 where HAS_TIMER is false (R38). -/
def tmReads (s : State) : Bool := s.cfg.hasTimer && s.tm

/-- OF as it acts: 0 during an interrupt (R34, R69). -/
def ofEff (s : State) : BitVec 2 := if s.ifBit then 0 else s.ofBits

/-! ### Free values -/

/-- The next free byte. -/
def freeByteNow (s : State) : Byte := Config.freeByte s.draws

/-- One free value has been drawn. -/
def afterDraw (s : State) : State := { s with draws := s.draws + 1 }

/-! ### Data memory (R60 to R73) -/

/-- `phys_data(d)`: the data area of the split model, or the same byte as in program space in the tiny model and for the
instruction after PMEMACC (R62). -/
def physData (s : State) (d : DataAddr) : Nat :=
  match s.cfg.memoryModel with
  | .tiny => d.toNat
  | .split => if s.paccNow then d.toNat else s.cfg.dataBase + d.toNat

/-- `MemRead(p, 1)`, of installed memory only; any other address is refused (R63). -/
def readPhys (s : State) (p : Nat) : Host.Outcome Byte Fault Refusal :=
  if p < s.cfg.memBytes then .next (Memory.read s.mem p) else .refused (.absentMemory p)

/-- `MemWrite(p, 1, v)`. The byte it replaces is remembered for the fetch of the next instruction, which may still see it (R80, R461). -/
def storeByte (s : State) (p : Nat) (v : Byte) : State :=
  { s with
    mem := Memory.write s.mem p v
    stale := some (p, Memory.read s.mem p) }

/-- `DRead(d)` (R66). -/
def dataRead (s : State) (d : DataAddr) : Host.Outcome Byte Fault Refusal := readPhys s (physData s d)

/-- A write after PMEMACC in user mode is not performed (R67, R73, D34), whatever the memory model. In the TINY model R161 says that
PMEMACC changes nothing, which would let the write through: that R67 holds there too is the model's choice (DESIGN CHOICE, log
entry 31). -/
def writeSuppressed (s : State) : Bool := s.paccNow && inUser s

/-- `DWrite(d, v)` (R67). A write that is not performed accesses no byte, so R63 does not refuse it (log entry 16). -/
def dataWrite (s : State) (d : DataAddr) (v : Byte) : Out :=
  if writeSuppressed s then .next s
  else if physData s d < s.cfg.memBytes then .next (storeByte s (physData s d) v)
  else .refused (.absentMemory (physData s d))

/-- `violates(d, form)` for the pointer forms `AB`, `mB` and `AC` (R71). -/
def violates (s : State) (d : DataAddr) : Bool := inUser s && decide (d.toNat < s.cfg.protLimit)

/-- `raise AccessViolation(d)`: AE <- 1 (R72, R410). The interrupt is taken, if at all, at the next boundary (R411). -/
def raiseViolation (s : State) : State := { s with ae := true }

/-- `DReadP(d, form)`: a violating read raises and delivers an unspecified byte (R72). -/
def checkedRead (s : State) (d : DataAddr) : Host.Outcome (Byte × State) Fault Refusal :=
  if violates s d then .next (freeByteNow s, afterDraw (raiseViolation s))
  else onNext (dataRead s d) fun v => .next (v, s)

/-- `DWriteP(d, v, form)`: a violating write raises and is not performed (R72). -/
def checkedWrite (s : State) (d : DataAddr) (v : Byte) : Out :=
  if violates s d then .next (raiseViolation s) else dataWrite s d v

/-! ### Ports (R350) -/

/-- The byte the environment delivers to the next port read: the next of its script, or any byte. -/
def portByte (s : State) : Byte := s.portIn.headD (freeByteNow s)

/-- `IOIn(p)`: the event, and the byte is delivered. -/
def afterPortRead (s : State) (port : Byte) : State :=
  { s with
    portIn := s.portIn.tail
    draws := if s.portIn.isEmpty then s.draws + 1 else s.draws
    io := s.io ++ [.input port (portByte s)] }

/-- `IOOut(p, v)`: the event only. -/
def portWrite (s : State) (port v : Byte) : State := { s with io := s.io ++ [.output port v] }

/-! ### Interrupts (R400 to R421) -/

/-- The vector of interrupt slot `k`: 32 + 2k (R405). -/
def slotVector (cfg : Config) (k : BitVec 4) : Counter := wrapCtr cfg (32 + 2 * k.toNat)

/-- TAKING AN INTERRUPT: IF <- 1, IC <- vector. Nothing else changes: the return address is what PC, or MC, keeps; the flags, EF,
AE and PACC keep their values; nothing is saved (R404, R407). -/
def enterInterrupt (s : State) (vector : Counter) : State :=
  { s with
    ifBit := true
    ic := vector }

/-- `ae_req`: AE = 1 acts as a request on the input of INT1 (R402, R411). -/
def aeRequest (s : State) : Bool := aeReads s

/-- Whether an entry happens at this boundary instead of the next instruction (R402). -/
def interruptAccepted (s : State) : Bool :=
  !s.ifBit && s.ef && (s.lines.int0 || s.lines.int1 || aeRequest s)

/-- The vector of the request with the highest priority: INT0, then INT1, then the access violation (R406). -/
def requestVector (s : State) : Counter :=
  if s.lines.int0 then slotVector s.cfg 0
  else if s.lines.int1 then slotVector s.cfg 15
  else wrapCtr s.cfg s.cfg.aeVector

/-- `{CF, 0, 0, OF1, OF0, UF, MF, ZF}`, the flag register as GETFLAG stores it (R26, R204). -/
def flagByte (s : State) : Byte :=
  BitVec.ofBool s.cf ++ (0 : BitVec 2) ++ s.ofBits ++ BitVec.ofBool (inUser s) ++ BitVec.ofBool s.mf ++ BitVec.ofBool s.zf

/-- A write of the flag register from a byte whose bit 1 equals MF: CF, OF, UF and ZF; bits 6 and 5 are ignored, UF only where it
exists (R203). -/
def setFlags (s : State) (v : Byte) : State :=
  { s with
    cf := v.getLsbD 7
    ofBits := v.extractLsb' 3 2
    uf := if s.cfg.userMode then v.getLsbD 2 else s.uf
    zf := v.getLsbD 0 }

/-- RETURNING FROM AN INTERRUPT: the flags from the byte, IF <- 0. EF, A, B and C are not touched, and PC, or MC, resumes (R420). -/
def leaveInterrupt (s : State) (v : Byte) : State := { setFlags s v with ifBit := false }

/-- `{EF, 0, 0, 0, 0, 0, TM, AE}`, the status register (R36). -/
def statusByte (s : State) : Byte :=
  BitVec.ofBool s.ef ++ (0 : BitVec 5) ++ BitVec.ofBool (tmReads s) ++ BitVec.ofBool (aeReads s)

end Sys2Proof.Machine
end

