-- ==== Sys2Proof/Machine/Operands.lean ====
section
/-!
DEFINITION. The operand forms: how an operand `xx` becomes a data address and how the operand is read and written
(spec/20_memory.md R68 to R72, spec/41_moves.md R190), and the source operand of the `A,` forms (R245, R260).
-/

namespace Sys2Proof.Machine

open Sys2Proof

/-- The three forms of R68. -/
inductive Operand where
  /-- `D`, written `[m]`. -/
  | direct (m : BitVec 7)
  /-- `AB`, written `[A:B]`. -/
  | ptr
  /-- `mB`, written `[m:B]`. -/
  | page (m : BitVec 7)
  deriving DecidableEq, Repr

/-- The byte `m` of the window that OF selects: `OFeff × 128 + m` (R68, R69, R70). -/
def windowAddr (s : State) (m : BitVec 7) : DataAddr := BitVec.ofNat 16 ((ofEff s).toNat * 128 + m.toNat)

/-- `(m × 256) + B` (R68). -/
def pageAddr (s : State) (m : BitVec 7) : DataAddr := BitVec.ofNat 16 (m.toNat * 256 + s.b.toNat)

/-- `EA(xx)`: the data address, from the registers as they are when the instruction starts (R68). -/
def ea (s : State) (o : Operand) : DataAddr :=
  match o with
  | .direct m => windowAddr s m
  | .ptr => pair s.a s.b
  | .page m => pageAddr s m

/-- Whether an access through the form raises an access violation: never the direct form (R71, R190). -/
def operandViolates (s : State) (o : Operand) : Bool :=
  match o with
  | .direct _ => false
  | .ptr => violates s (ea s .ptr)
  | .page m => violates s (ea s (.page m))

/-- `RdOp(xx)` (R190). -/
def readOperand (s : State) (o : Operand) : Host.Outcome (Byte × State) Fault Refusal :=
  match o with
  | .direct m => onNext (dataRead s (windowAddr s m)) fun v => .next (v, s)
  | .ptr => checkedRead s (ea s .ptr)
  | .page m => checkedRead s (ea s (.page m))

/-- `WrOp(xx, v)` (R190). -/
def writeOperand (s : State) (o : Operand) (v : Byte) : Out :=
  match o with
  | .direct m => dataWrite s (windowAddr s m) v
  | .ptr => checkedWrite s (ea s .ptr) v
  | .page m => checkedWrite s (ea s (.page m)) v

/-- The source of the `A,` forms: memory in the `[m]` and `[m:B]` forms, register C for `xx = 127` (R245, R260). -/
inductive Source where
  | memory (o : Operand)
  | regC
  deriving DecidableEq, Repr

/-- `s = xx = 127 ? C : RdOp(xx)` (R245, R267). -/
def readSource (s : State) (src : Source) : Host.Outcome (Byte × State) Fault Refusal :=
  match src with
  | .memory o => readOperand s o
  | .regC => .next (s.c, s)

/-- `r = xx = 127 ? C : A`: the register operand of the memory forms of the two-operand instructions (R240, R265). -/
def registerOperand (s : State) (o : Operand) : Byte :=
  match o with
  | .ptr => s.c
  | .direct _ => s.a
  | .page _ => s.a

/-- The destination `[A:C]` of STACP and STAC (R70). -/
def addrAC (s : State) : DataAddr := pair s.a s.c

/-- The destination `[C]` of STZCP: high byte zero, no offset (R70, R226). -/
def addrC (s : State) : DataAddr := pair 0 s.c

end Sys2Proof.Machine
end

