-- ==== Sys2Proof/Machine/Flags.lean ====
section
/-!
DEFINITION. The values the arithmetic, the logic and the shifts give, with their flags (spec/10_state.md R46,
spec/42_logic_shift.md R231 to R234, spec/43_arith.md R260).
-/

namespace Sys2Proof.Machine

open Sys2Proof

/-- `Z(r)` (R46). -/
def isZero (r : Byte) : Bool := r == 0

/-- A result with the carry or borrow it leaves. -/
structure WithCarry where
  result : Byte
  carry : Bool
  deriving DecidableEq, Repr

/-- 0 or 1. -/
def bit (x : Bool) : Nat := if x then 1 else 0

/-- `ADD8(x, y, c)`: the sum modulo 256 and the carry out of bit 7 (R46, R260). -/
def add8 (x y : Byte) (c : Bool) : WithCarry where
  result := BitVec.ofNat 8 (x.toNat + y.toNat + bit c)
  carry := decide (256 ≤ x.toNat + y.toNat + bit c)

/-- `SUB8(x, y, c)`: the difference modulo 256 and the borrow, 1 when the true difference is negative (R46, R260). -/
def sub8 (x y : Byte) (c : Bool) : WithCarry where
  result := BitVec.ofInt 8 ((x.toNat : Int) - y.toNat - bit c)
  carry := decide (x.toNat < y.toNat + bit c)

/-- Shift left by one, `low` into bit 0, bit 7 out (R231, R233). -/
def shiftLeft (low : Bool) (old : Byte) : WithCarry where
  result := (old.extractLsb' 0 7 ++ BitVec.ofBool low : BitVec 8)
  carry := old.getLsbD 7

/-- Shift right by one, `high` into bit 7, bit 0 out (R232, R234). -/
def shiftRight (high : Bool) (old : Byte) : WithCarry where
  result := (BitVec.ofBool high ++ old.extractLsb' 1 7 : BitVec 8)
  carry := old.getLsbD 0

/-- CF and ZF after an addition or subtraction (R46). -/
def setCarryZero (s : State) (r : WithCarry) : State :=
  { s with
    cf := r.carry
    zf := isZero r.result }

/-- CF after a shift; ZF is not written (R230). -/
def setCarry (s : State) (r : WithCarry) : State := { s with cf := r.carry }

/-- ZF after a logical operation; CF is not written (R230). -/
def setZero (s : State) (r : Byte) : State := { s with zf := isZero r }

/-- `A * C + m`, unsigned, 16 bits (R142, R146). -/
def mulAdd (x y m : Byte) : DataAddr := BitVec.ofNat 16 (x.toNat * y.toNat + m.toNat)

end Sys2Proof.Machine
end

