-- ==== Sys2Proof/Machine/Arith.lean ====
section
/-!
DEFINITION. Increment, decrement, add and subtract (spec/43_arith.md).
-/

namespace Sys2Proof.Machine

open Sys2Proof

/-- An addition or subtraction on the byte of a form: the result to memory, CF and ZF (R260). -/
def arithMemory (f : Byte → WithCarry) (o : Operand) (s : State) : Out :=
  onNext (readOperand s o) fun r =>
  onNext (writeOperand r.2 o (f r.1).result) fun t => .next (setCarryZero t (f r.1))

/-- The X forms: memory as `arithMemory`, A receives the old byte and B the old A, all at once (R263). -/
def arithExchange (f : Byte → WithCarry) (o : Operand) (s : State) : Out :=
  onNext (readOperand s o) fun r =>
  onNext (writeOperand r.2 o (f r.1).result) fun t =>
  .next { setCarryZero t (f r.1) with a := r.1, b := s.a }

/-- An addition or subtraction of a source into A (R267, R276). -/
def arithAFrom (f : Byte → WithCarry) (src : Source) (s : State) : Out :=
  onNext (readSource s src) fun r => .next { setCarryZero r.2 (f r.1) with a := (f r.1).result }

/-- DEC at `xx` = 124 and 125: the decrement, ZF written and CF kept (R270). -/
def decrementKeepCarry (o : Operand) (s : State) : Out :=
  onNext (readOperand s o) fun r =>
  onNext (writeOperand r.2 o (sub8 r.1 1 false).result) fun t => .next (setZero t (sub8 r.1 1 false).result)

/-- `INC [m]` (R261). -/
def execIncDirect (m : BitVec 7) (s : State) : Out := arithMemory (add8 · 1 false) (.direct m) s

/-- `INC [A:B]` (R261). -/
def execIncPtr (s : State) : Out := arithMemory (add8 · 1 false) .ptr s

/-- `INC [m:B]` (R261). -/
def execIncPage (m : BitVec 7) (s : State) : Out := arithMemory (add8 · 1 false) (.page m) s

/-- `INCC [m]` (R262). -/
def execInccDirect (m : BitVec 7) (s : State) : Out := arithMemory (add8 · 0 s.cf) (.direct m) s

/-- `INCC [A:B]` (R262). -/
def execInccPtr (s : State) : Out := arithMemory (add8 · 0 s.cf) .ptr s

/-- `INCC [m:B]` (R262). -/
def execInccPage (m : BitVec 7) (s : State) : Out := arithMemory (add8 · 0 s.cf) (.page m) s

/-- `INCX [m]` (R263). -/
def execIncxDirect (m : BitVec 7) (s : State) : Out := arithExchange (add8 · 1 false) (.direct m) s

/-- `INCX [A:B]` (R263). -/
def execIncxPtr (s : State) : Out := arithExchange (add8 · 1 false) .ptr s

/-- `INCX [m:B]` (R263). -/
def execIncxPage (m : BitVec 7) (s : State) : Out := arithExchange (add8 · 1 false) (.page m) s

/-- `INCXC [m]` (R264). -/
def execIncxcDirect (m : BitVec 7) (s : State) : Out := arithExchange (add8 · 0 s.cf) (.direct m) s

/-- `INCXC [A:B]` (R264). -/
def execIncxcPtr (s : State) : Out := arithExchange (add8 · 0 s.cf) .ptr s

/-- `INCXC [m:B]` (R264). -/
def execIncxcPage (m : BitVec 7) (s : State) : Out := arithExchange (add8 · 0 s.cf) (.page m) s

/-- `DEC [m]` (R270). CF is kept for `m` = 124 and 125, whatever the offset. -/
def execDecDirect (m : BitVec 7) (s : State) : Out :=
  if m.toNat = 124 ∨ m.toNat = 125 then decrementKeepCarry (.direct m) s
  else arithMemory (sub8 · 1 false) (.direct m) s

/-- `DEC [A:B]` (R270). -/
def execDecPtr (s : State) : Out := arithMemory (sub8 · 1 false) .ptr s

/-- `DEC [m:B]` (R270). -/
def execDecPage (m : BitVec 7) (s : State) : Out := arithMemory (sub8 · 1 false) (.page m) s

/-- `DECC [m]` (R271). -/
def execDeccDirect (m : BitVec 7) (s : State) : Out := arithMemory (sub8 · 0 s.cf) (.direct m) s

/-- `DECC [A:B]` (R271). -/
def execDeccPtr (s : State) : Out := arithMemory (sub8 · 0 s.cf) .ptr s

/-- `DECC [m:B]` (R271). -/
def execDeccPage (m : BitVec 7) (s : State) : Out := arithMemory (sub8 · 0 s.cf) (.page m) s

/-- `DECX [m]` (R272). -/
def execDecxDirect (m : BitVec 7) (s : State) : Out := arithExchange (sub8 · 1 false) (.direct m) s

/-- `DECX [A:B]` (R272). -/
def execDecxPtr (s : State) : Out := arithExchange (sub8 · 1 false) .ptr s

/-- `DECX [m:B]` (R272). -/
def execDecxPage (m : BitVec 7) (s : State) : Out := arithExchange (sub8 · 1 false) (.page m) s

/-- `DECXC [m]` (R273). -/
def execDecxcDirect (m : BitVec 7) (s : State) : Out := arithExchange (sub8 · 0 s.cf) (.direct m) s

/-- `DECXC [A:B]` (R273). -/
def execDecxcPtr (s : State) : Out := arithExchange (sub8 · 0 s.cf) .ptr s

/-- `DECXC [m:B]` (R273). -/
def execDecxcPage (m : BitVec 7) (s : State) : Out := arithExchange (sub8 · 0 s.cf) (.page m) s

/-- `ADD [m],A` (R265). -/
def execAddDirectA (m : BitVec 7) (s : State) : Out := arithMemory (add8 · (registerOperand s (.direct m)) false) (.direct m) s

/-- `ADD [A:B],C` (R265). -/
def execAddPtrC (s : State) : Out := arithMemory (add8 · (registerOperand s .ptr) false) .ptr s

/-- `ADD [m:B],A` (R265). -/
def execAddPageA (m : BitVec 7) (s : State) : Out := arithMemory (add8 · (registerOperand s (.page m)) false) (.page m) s

/-- `ADD A,[m]` (R267). -/
def execAddADirect (m : BitVec 7) (s : State) : Out := arithAFrom (add8 s.a · false) (.memory (.direct m)) s

/-- `ADD A,C` (R267). -/
def execAddAC (s : State) : Out := arithAFrom (add8 s.a · false) .regC s

/-- `ADD A,[m:B]` (R267). -/
def execAddAPage (m : BitVec 7) (s : State) : Out := arithAFrom (add8 s.a · false) (.memory (.page m)) s

/-- `ADDC [m],A` (R266). -/
def execAddcDirectA (m : BitVec 7) (s : State) : Out := arithMemory (add8 · (registerOperand s (.direct m)) s.cf) (.direct m) s

/-- `ADDC [A:B],C` (R266). -/
def execAddcPtrC (s : State) : Out := arithMemory (add8 · (registerOperand s .ptr) s.cf) .ptr s

/-- `ADDC [m:B],A` (R266). -/
def execAddcPageA (m : BitVec 7) (s : State) : Out := arithMemory (add8 · (registerOperand s (.page m)) s.cf) (.page m) s

/-- `ADDC A,[m]` (R268). -/
def execAddcADirect (m : BitVec 7) (s : State) : Out := arithAFrom (add8 s.a · s.cf) (.memory (.direct m)) s

/-- `ADDC A,C` (R268). -/
def execAddcAC (s : State) : Out := arithAFrom (add8 s.a · s.cf) .regC s

/-- `ADDC A,[m:B]` (R268). -/
def execAddcAPage (m : BitVec 7) (s : State) : Out := arithAFrom (add8 s.a · s.cf) (.memory (.page m)) s

/-- `SUB [m],A` (R274). -/
def execSubDirectA (m : BitVec 7) (s : State) : Out := arithMemory (sub8 · (registerOperand s (.direct m)) false) (.direct m) s

/-- `SUB [A:B],C` (R274). -/
def execSubPtrC (s : State) : Out := arithMemory (sub8 · (registerOperand s .ptr) false) .ptr s

/-- `SUB [m:B],A` (R274). -/
def execSubPageA (m : BitVec 7) (s : State) : Out := arithMemory (sub8 · (registerOperand s (.page m)) false) (.page m) s

/-- `SUB A,[m]` (R276). -/
def execSubADirect (m : BitVec 7) (s : State) : Out := arithAFrom (sub8 · s.a false) (.memory (.direct m)) s

/-- `SUB A,C` (R276). -/
def execSubAC (s : State) : Out := arithAFrom (sub8 · s.a false) .regC s

/-- `SUB A,[m:B]` (R276). -/
def execSubAPage (m : BitVec 7) (s : State) : Out := arithAFrom (sub8 · s.a false) (.memory (.page m)) s

/-- `SUBC [m],A` (R275). -/
def execSubcDirectA (m : BitVec 7) (s : State) : Out := arithMemory (sub8 · (registerOperand s (.direct m)) s.cf) (.direct m) s

/-- `SUBC [A:B],C` (R275). -/
def execSubcPtrC (s : State) : Out := arithMemory (sub8 · (registerOperand s .ptr) s.cf) .ptr s

/-- `SUBC [m:B],A` (R275). -/
def execSubcPageA (m : BitVec 7) (s : State) : Out := arithMemory (sub8 · (registerOperand s (.page m)) s.cf) (.page m) s

/-- `SUBC A,[m]` (R277). -/
def execSubcADirect (m : BitVec 7) (s : State) : Out := arithAFrom (sub8 · s.a s.cf) (.memory (.direct m)) s

/-- `SUBC A,C` (R277). -/
def execSubcAC (s : State) : Out := arithAFrom (sub8 · s.a s.cf) .regC s

/-- `SUBC A,[m:B]` (R277). -/
def execSubcAPage (m : BitVec 7) (s : State) : Out := arithAFrom (sub8 · s.a s.cf) (.memory (.page m)) s

end Sys2Proof.Machine
end

