-- ==== Sys2Proof/Machine/Interrupt.lean ====
section
/-!
DEFINITION. The software interrupt and the return from an interrupt (spec/60_exceptions.md R407, R420).
-/

namespace Sys2Proof.Machine

open Sys2Proof

/-- `INT k` (R162). EF is not consulted. -/
def execInt (k : BitVec 4) (s : State) : Out :=
  if s.ifBit then .refused .intInInterrupt else .next (enterInterrupt s (slotVector s.cfg k))

/-- `RETI [m]` (R420). `OFeff` is 0 because IF = 1. -/
def execReti (m : BitVec 7) (s : State) : Out :=
  if s.ifBit then
    onNext (dataRead s (windowAddr s m)) fun v =>
    if v.getLsbD 1 = s.mf then .next (leaveInterrupt s v) else .refused .flagByteChangesMf
  else .refused .retiOutsideInterrupt

end Sys2Proof.Machine
end

