-- ==== Sys2Proof/Machine/Io.lean ====
section
/-!
DEFINITION. Port input and output through memory (spec/45_io.md).
-/

namespace Sys2Proof.Machine

open Sys2Proof

/-- IN over a form: the port C is read, then the byte goes to memory; the port is read also when the write violates (R351). -/
def inTo (o : Operand) (s : State) : Out := writeOperand (afterPortRead s s.c) o (portByte s)

/-- OUT over a form: a memory byte to the port C (R352). -/
def outFrom (o : Operand) (s : State) : Out :=
  onNext (readOperand s o) fun r => .next (portWrite r.2 s.c r.1)

/-- `IN [m]` (R351). -/
def execInDirect (m : BitVec 7) (s : State) : Out := inTo (.direct m) s

/-- `IN [A:B]` (R351). -/
def execInPtr (s : State) : Out := inTo .ptr s

/-- `IN [m:B]` (R351). -/
def execInPage (m : BitVec 7) (s : State) : Out := inTo (.page m) s

/-- `OUT [m]` (R352). -/
def execOutDirect (m : BitVec 7) (s : State) : Out := outFrom (.direct m) s

/-- `OUT [A:B]` (R352). -/
def execOutPtr (s : State) : Out := outFrom .ptr s

/-- `OUT [m:B]` (R352). -/
def execOutPage (m : BitVec 7) (s : State) : Out := outFrom (.page m) s

end Sys2Proof.Machine
end

