-- ==== Sys2Proof/Machine/Logic.lean ====
section
/-!
DEFINITION. Shifts and logical operations (spec/42_logic_shift.md): one read and one write of the same byte (R230).
-/

namespace Sys2Proof.Machine

open Sys2Proof

/-- A shift of the byte of a form: the result to memory, the bit shifted out to CF (R230). -/
def shiftMemory (f : Byte → WithCarry) (o : Operand) (s : State) : Out :=
  onNext (readOperand s o) fun r =>
  onNext (writeOperand r.2 o (f r.1).result) fun t => .next (setCarry t (f r.1))

/-- A logical operation of the byte of a form with the register operand: the result to memory, ZF from it (R240). -/
def logicMemory (f : Byte → Byte → Byte) (o : Operand) (s : State) : Out :=
  onNext (readOperand s o) fun r =>
  onNext (writeOperand r.2 o (f r.1 (registerOperand s o))) fun t =>
  .next (setZero t (f r.1 (registerOperand s o)))

/-- A logical operation of A with a value: the result to A, ZF from it (R246). -/
def logicA (f : Byte → Byte → Byte) (v : Byte) (s : State) : State := { setZero s (f s.a v) with a := f s.a v }

/-- A logical operation of A with a source (R245). -/
def logicAFrom (f : Byte → Byte → Byte) (src : Source) (s : State) : Out :=
  onNext (readSource s src) fun r => .next (logicA f r.1 r.2)

/-- `SHL [m]` (R231). -/
def execShlDirect (m : BitVec 7) (s : State) : Out := shiftMemory (shiftLeft false) (.direct m) s

/-- `SHL [A:B]` (R231). -/
def execShlPtr (s : State) : Out := shiftMemory (shiftLeft false) .ptr s

/-- `SHL [m:B]` (R231). -/
def execShlPage (m : BitVec 7) (s : State) : Out := shiftMemory (shiftLeft false) (.page m) s

/-- `SHR [m]` (R232). -/
def execShrDirect (m : BitVec 7) (s : State) : Out := shiftMemory (shiftRight false) (.direct m) s

/-- `SHR [A:B]` (R232). -/
def execShrPtr (s : State) : Out := shiftMemory (shiftRight false) .ptr s

/-- `SHR [m:B]` (R232). -/
def execShrPage (m : BitVec 7) (s : State) : Out := shiftMemory (shiftRight false) (.page m) s

/-- `SHLC [m]` (R233). -/
def execShlcDirect (m : BitVec 7) (s : State) : Out := shiftMemory (shiftLeft s.cf) (.direct m) s

/-- `SHLC [A:B]` (R233). -/
def execShlcPtr (s : State) : Out := shiftMemory (shiftLeft s.cf) .ptr s

/-- `SHLC [m:B]` (R233). -/
def execShlcPage (m : BitVec 7) (s : State) : Out := shiftMemory (shiftLeft s.cf) (.page m) s

/-- `SHRC [m]` (R234). -/
def execShrcDirect (m : BitVec 7) (s : State) : Out := shiftMemory (shiftRight s.cf) (.direct m) s

/-- `SHRC [A:B]` (R234). -/
def execShrcPtr (s : State) : Out := shiftMemory (shiftRight s.cf) .ptr s

/-- `SHRC [m:B]` (R234). -/
def execShrcPage (m : BitVec 7) (s : State) : Out := shiftMemory (shiftRight s.cf) (.page m) s

/-- `AND [m],A` (R240). -/
def execAndDirectA (m : BitVec 7) (s : State) : Out := logicMemory (· &&& ·) (.direct m) s

/-- `AND [A:B],C` (R240). -/
def execAndPtrC (s : State) : Out := logicMemory (· &&& ·) .ptr s

/-- `AND [m:B],A` (R240). -/
def execAndPageA (m : BitVec 7) (s : State) : Out := logicMemory (· &&& ·) (.page m) s

/-- `AND A,[m]` (R245). -/
def execAndADirect (m : BitVec 7) (s : State) : Out := logicAFrom (· &&& ·) (.memory (.direct m)) s

/-- `AND A,C` (R245). -/
def execAndAC (s : State) : Out := logicAFrom (· &&& ·) .regC s

/-- `AND A,[m:B]` (R245). -/
def execAndAPage (m : BitVec 7) (s : State) : Out := logicAFrom (· &&& ·) (.memory (.page m)) s

/-- `AND A,n` (R246). -/
def execAndAImm (n : Byte) (s : State) : Out := .next (logicA (· &&& ·) n s)

/-- `XOR [m],A` (R241). -/
def execXorDirectA (m : BitVec 7) (s : State) : Out := logicMemory (· ^^^ ·) (.direct m) s

/-- `XOR [A:B],C` (R241). -/
def execXorPtrC (s : State) : Out := logicMemory (· ^^^ ·) .ptr s

/-- `XOR [m:B],A` (R241). -/
def execXorPageA (m : BitVec 7) (s : State) : Out := logicMemory (· ^^^ ·) (.page m) s

/-- `XOR A,[m]` (R247). -/
def execXorADirect (m : BitVec 7) (s : State) : Out := logicAFrom (· ^^^ ·) (.memory (.direct m)) s

/-- `XOR A,C` (R247). -/
def execXorAC (s : State) : Out := logicAFrom (· ^^^ ·) .regC s

/-- `XOR A,[m:B]` (R247). -/
def execXorAPage (m : BitVec 7) (s : State) : Out := logicAFrom (· ^^^ ·) (.memory (.page m)) s

/-- `XOR A,n` (R248). -/
def execXorAImm (n : Byte) (s : State) : Out := .next (logicA (· ^^^ ·) n s)

/-- `OR [m],A` (R242). -/
def execOrDirectA (m : BitVec 7) (s : State) : Out := logicMemory (· ||| ·) (.direct m) s

/-- `OR [A:B],C` (R242). -/
def execOrPtrC (s : State) : Out := logicMemory (· ||| ·) .ptr s

/-- `OR [m:B],A` (R242). -/
def execOrPageA (m : BitVec 7) (s : State) : Out := logicMemory (· ||| ·) (.page m) s

/-- `OR A,[m]` (R249). -/
def execOrADirect (m : BitVec 7) (s : State) : Out := logicAFrom (· ||| ·) (.memory (.direct m)) s

/-- `OR A,C` (R249). -/
def execOrAC (s : State) : Out := logicAFrom (· ||| ·) .regC s

/-- `OR A,[m:B]` (R249). -/
def execOrAPage (m : BitVec 7) (s : State) : Out := logicAFrom (· ||| ·) (.memory (.page m)) s

/-- `OR A,n` (R250). -/
def execOrAImm (n : Byte) (s : State) : Out := .next (logicA (· ||| ·) n s)

end Sys2Proof.Machine
end

