-- ==== Sys2Proof/Machine/Branch.lean ====
section
/-!
DEFINITION. Jumps, branch-and-link and relative branches (spec/44_branch_loop.md R300 to R325). When a meaning runs the active counter
holds `nxt` (R300).
-/

namespace Sys2Proof.Machine

open Sys2Proof

/-- `T_m` (R301). -/
def targetM (s : State) (m : BitVec 7) : Counter := wrapCtr s.cfg (m.toNat * 2)

/-- `T_AB` (R301). -/
def targetAB (s : State) : Counter := indexTarget s.cfg (pair s.a s.b)

/-- `T_mB` (R301). -/
def targetMB (s : State) (m : BitVec 7) : Counter := wrapCtr s.cfg ((m.toNat * 256 + s.b.toNat) * 2)

/-- `(nxt + offset × 2) mod 2^PCW` (R301). -/
def relativeTarget (s : State) (offset : Int) : Counter :=
  wrapCtr s.cfg ((((ctr s).toNat : Int) + offset * 2) % ((2 ^ s.cfg.pcw : Nat) : Int)).toNat

/-- `T_n` (R301). -/
def targetN (s : State) (n : Byte) : Counter := relativeTarget s n.toInt

/-- `T_B`, B sign-extended when JRB_SIGNED (R301). -/
def targetB (s : State) : Counter := relativeTarget s (if s.cfg.jrbSigned then s.b.toInt else (s.b.toNat : Int))

/-- `link()`: A:B receives `nxt / 2`, the index of the instruction after the branch (R302). -/
def link (s : State) (nxt : Counter) : State := setAB s (ctrIndex nxt)

/-- A branch: taken, it writes the active counter; not taken, it does nothing (R300). -/
def branchIf (cond : Bool) (target : Counter) (s : State) : Out :=
  .next (if cond then setCtr s target else s)

/-- A branch and link, the target and the link from the values before the instruction; not taken, it does nothing (R302). -/
def linkIf (cond : Bool) (target : Counter) (s : State) : Out :=
  .next (if cond then link (setCtr s target) (ctr s) else s)

/-- Whether JSIG121 holds a `JMP m` or `BAL m` back: operand 121, the option on, the signal 0 (R309). -/
def gated (s : State) (m : BitVec 7) : Bool := m == 121 && s.cfg.jsig121Option && !s.lines.jsig121

/-- `JMP m` (R305). -/
def execJmpDirect (m : BitVec 7) (s : State) : Out := branchIf (!gated s m) (targetM s m) s

/-- `JMPC0 A:B` (R306). -/
def execJmpC0 (s : State) : Out := branchIf (!s.cf) (targetAB s) s

/-- `JMPC1 A:B` (R341). -/
def execJmpC1 (s : State) : Out := branchIf s.cf (targetAB s) s

/-- `JMPZ0 A:B` (R342). -/
def execJmpZ0 (s : State) : Out := branchIf (!s.zf) (targetAB s) s

/-- `JMPZ1 A:B` (R343). -/
def execJmpZ1 (s : State) : Out := branchIf s.zf (targetAB s) s

/-- `JMP A:B` (R307). -/
def execJmpPtr (s : State) : Out := branchIf true (targetAB s) s

/-- `JMP m:B` (R308). -/
def execJmpPage (m : BitVec 7) (s : State) : Out := branchIf true (targetMB s m) s

/-- `BAL m` (R310). -/
def execBalDirect (m : BitVec 7) (s : State) : Out := linkIf (!gated s m) (targetM s m) s

/-- `BALC0 A:B` (R311). -/
def execBalC0 (s : State) : Out := linkIf (!s.cf) (targetAB s) s

/-- `BALC1 A:B` (R344). -/
def execBalC1 (s : State) : Out := linkIf s.cf (targetAB s) s

/-- `BALZ0 A:B` (R345). -/
def execBalZ0 (s : State) : Out := linkIf (!s.zf) (targetAB s) s

/-- `BALZ1 A:B` (R346). -/
def execBalZ1 (s : State) : Out := linkIf s.zf (targetAB s) s

/-- `BAL A:B` (R312). -/
def execBalPtr (s : State) : Out := linkIf true (targetAB s) s

/-- `BAL m:B` (R313). -/
def execBalPage (m : BitVec 7) (s : State) : Out := linkIf true (targetMB s m) s

/-- `JR n` (R315). -/
def execJrRel (n : Byte) (s : State) : Out := branchIf true (targetN s n) s

/-- `JR B` (R315). -/
def execJrB (s : State) : Out := branchIf true (targetB s) s

/-- `BR n` (R316). -/
def execBrRel (n : Byte) (s : State) : Out := linkIf true (targetN s n) s

/-- `BR B` (R316). -/
def execBrB (s : State) : Out := linkIf true (targetB s) s

/-- `JRC0 n` (R317). -/
def execJrC0Rel (n : Byte) (s : State) : Out := branchIf (!s.cf) (targetN s n) s

/-- `JRC0 B` (R317). -/
def execJrC0B (s : State) : Out := branchIf (!s.cf) (targetB s) s

/-- `BRC0 n` (R318). -/
def execBrC0Rel (n : Byte) (s : State) : Out := linkIf (!s.cf) (targetN s n) s

/-- `BRC0 B` (R318). -/
def execBrC0B (s : State) : Out := linkIf (!s.cf) (targetB s) s

/-- `JRC1 n` (R319). -/
def execJrC1Rel (n : Byte) (s : State) : Out := branchIf s.cf (targetN s n) s

/-- `JRC1 B` (R319). -/
def execJrC1B (s : State) : Out := branchIf s.cf (targetB s) s

/-- `BRC1 n` (R320). -/
def execBrC1Rel (n : Byte) (s : State) : Out := linkIf s.cf (targetN s n) s

/-- `BRC1 B` (R320). -/
def execBrC1B (s : State) : Out := linkIf s.cf (targetB s) s

/-- `JRZ0 n` (R321). -/
def execJrZ0Rel (n : Byte) (s : State) : Out := branchIf (!s.zf) (targetN s n) s

/-- `JRZ0 B` (R321). -/
def execJrZ0B (s : State) : Out := branchIf (!s.zf) (targetB s) s

/-- `BRZ0 n` (R322). -/
def execBrZ0Rel (n : Byte) (s : State) : Out := linkIf (!s.zf) (targetN s n) s

/-- `BRZ0 B` (R322). -/
def execBrZ0B (s : State) : Out := linkIf (!s.zf) (targetB s) s

/-- `JRZ1 n` (R323). -/
def execJrZ1Rel (n : Byte) (s : State) : Out := branchIf s.zf (targetN s n) s

/-- `JRZ1 B` (R323). -/
def execJrZ1B (s : State) : Out := branchIf s.zf (targetB s) s

/-- `BRZ1 n` (R324). -/
def execBrZ1Rel (n : Byte) (s : State) : Out := linkIf s.zf (targetN s n) s

/-- `BRZ1 B` (R324). -/
def execBrZ1B (s : State) : Out := linkIf s.zf (targetB s) s

end Sys2Proof.Machine
end

