-- ==== Sys2Proof/Machine/Loop.lean ====
section
/-!
DEFINITION. The loop instructions (spec/44_branch_loop.md R330 to R338).
-/

namespace Sys2Proof.Machine

open Sys2Proof

/-- `if C != 0: CTR <- target, C <- C - 1, B <- B + step`, and nothing when C = 0 (R330, R335). -/
def loopStep (target : Counter) (step : Byte) (s : State) : State :=
  if s.c = 0 then s else { setCtr s target with c := s.c - 1, b := s.b + step }

/-- The address of the instruction that executes, `nxt - 2` (R28). -/
def selfAddr (s : State) : Counter := relativeTarget s (-1)

/-- `LOOPDEC 0` and `LOOPINC 0`: the three readings of LOOP0_REPEAT (R331, R336). -/
def loopZeroOffset (step : Byte) (s : State) : Out :=
  match s.cfg.loop0Repeat with
  | .refuse => .refused .loop0Open
  | .repeatSelf => .next (loopStep (selfAddr s) step s)
  | .fallthrough => .next (loopStep (ctr s) step s)

/-- A memory operation on `[A:B]`, done on every execution, then a loop with offset 0 (R332, R336, R337). -/
def loopCompound (op : State → Out) (step : Byte) (s : State) : Out :=
  if s.cfg.loop0Repeat = .refuse then .refused .loop0Open
  else onNext (op s) (loopZeroOffset step)

/-- The shift of the byte at `[A:B]` (R332, R337). -/
def shiftAtAB (f : Byte → WithCarry) (s : State) : Out :=
  onNext (readOperand s .ptr) fun r =>
  onNext (writeOperand r.2 .ptr (f r.1).result) fun t => .next (setCarry t (f r.1))

/-- `LOOPDEC 0` (R331). -/
def execLoopdecZero (s : State) : Out := loopZeroOffset (-1) s

/-- `LOOPDEC n` (R330). -/
def execLoopdecRel (n : Byte) (s : State) : Out := .next (loopStep (targetN s n) (-1) s)

/-- `LOOPSHRC` (R332). -/
def execLoopshrc (s : State) : Out := loopCompound (shiftAtAB (shiftRight s.cf)) (-1) s

/-- `LOOPZERO` (R336). -/
def execLoopzero (s : State) : Out := loopCompound (fun t => writeOperand t .ptr 0) 1 s

/-- `LOOPINC n` (R335). -/
def execLoopincRel (n : Byte) (s : State) : Out := .next (loopStep (targetN s n) 1 s)

/-- `LOOPSHLC` (R337). -/
def execLoopshlc (s : State) : Out := loopCompound (shiftAtAB (shiftLeft s.cf)) 1 s

end Sys2Proof.Machine
end

