-- ==== Sys2Proof/Machine/Macro.lean ====
section
/-!
DEFINITION. LDX and the entry of a hard macro (spec/46_opmsb_hardmacro.md R363, R364, R370).
-/

namespace Sys2Proof.Machine

open Sys2Proof

/-- `LDX A,[..]` over a form: A from memory, B receives the old A (R364). -/
def loadExchange (o : Operand) (s : State) : Out :=
  onNext (readOperand s o) fun r => .next { r.2 with a := r.1, b := s.a }

/-- The entry address of hard macro `p` (R370). -/
def macroEntry (cfg : Config) (p : BitVec 6) : Counter := wrapCtr cfg (cfg.macroBase + p.toNat * cfg.macroStride)

/-- `LDX A,n` (R363). -/
def execLdxAImm (n : Byte) (s : State) : Out := .next { s with a := n, b := s.a }

/-- `LDX A,[m]` (R364). -/
def execLdxADirect (m : BitVec 7) (s : State) : Out := loadExchange (.direct m) s

/-- `LDX A,[A:B]` (R364). -/
def execLdxAPtr (s : State) : Out := loadExchange .ptr s

/-- `LDX A,[m:B]` (R364). -/
def execLdxAPage (m : BitVec 7) (s : State) : Out := loadExchange (.page m) s

/-- `hard macro entry, number p, operand xx` (R370). PC keeps `nxt`, where the program resumes. -/
def execHmacro (p : BitVec 6) (xx : Byte) (s : State) : Out :=
  if s.ifBit then .refused .macroInInterrupt
  else if s.mf then .refused .macroInMillicode
  else
    onNext (dataWrite s (windowAddr s 0) xx) fun t =>
    .next { t with c := xx, mc := macroEntry s.cfg p, mf := true }

end Sys2Proof.Machine
end

