-- ==== Sys2Proof/Machine/Moves.lean ====
section
/-!
DEFINITION. Immediates, stores, flag-register transfer, loads and memory copies (spec/41_moves.md).
-/

namespace Sys2Proof.Machine

open Sys2Proof

/-- `LD A,n` (R191). -/
def execLdAImm (n : Byte) (s : State) : Out := .next { s with a := n }

/-- `LD B,n` (R192). -/
def execLdBImm (n : Byte) (s : State) : Out := .next { s with b := n }

/-- `LD C,n` (R193). -/
def execLdCImm (n : Byte) (s : State) : Out := .next { s with c := n }

/-- SETFLAG over a form: every flag from the byte, but a byte that would change MF is refused (R203). After a violating read the
flags receive the unspecified byte and MF keeps its value, whatever bit 1 of that byte is (R203, R72; log entry 15). -/
def setflagFrom (o : Operand) (s : State) : Out :=
  onNext (readOperand s o) fun r =>
  if operandViolates s o || r.1.getLsbD 1 == s.mf then .next (setFlags r.2 r.1) else .refused .flagByteChangesMf

/-- `SETFLAG [m]` (R203). -/
def execSetflagDirect (m : BitVec 7) (s : State) : Out := setflagFrom (.direct m) s

/-- `SETFLAG [A:B]` (R203). -/
def execSetflagPtr (s : State) : Out := setflagFrom .ptr s

/-- `SETFLAG [m:B]` (R203). -/
def execSetflagPage (m : BitVec 7) (s : State) : Out := setflagFrom (.page m) s

/-- GETFLAG over a form: the flag byte to memory (R204). -/
def getflagTo (o : Operand) (s : State) : Out := writeOperand s o (flagByte s)

/-- `GETFLAG [m]` (R204). -/
def execGetflagDirect (m : BitVec 7) (s : State) : Out := getflagTo (.direct m) s

/-- `GETFLAG [A:B]` (R204). -/
def execGetflagPtr (s : State) : Out := getflagTo .ptr s

/-- `GETFLAG [m:B]` (R204). -/
def execGetflagPage (m : BitVec 7) (s : State) : Out := getflagTo (.page m) s

/-- `ST [m],A` (R205). -/
def execStDirectA (m : BitVec 7) (s : State) : Out := writeOperand s (.direct m) s.a

/-- `ST [m:B],A` (R205). -/
def execStPageA (m : BitVec 7) (s : State) : Out := writeOperand s (.page m) s.a

/-- `ST [m],B` (R206). -/
def execStDirectB (m : BitVec 7) (s : State) : Out := dataWrite s (windowAddr s m) s.b

/-- `ST [m],C` (R207). -/
def execStDirectC (m : BitVec 7) (s : State) : Out := writeOperand s (.direct m) s.c

/-- `ST [A:B],C` (R207). -/
def execStPtrC (s : State) : Out := writeOperand s .ptr s.c

/-- `ST [m:B],C` (R207). -/
def execStPageC (m : BitVec 7) (s : State) : Out := writeOperand s (.page m) s.c

/-- `ZERO [m]` (R208). A direct address, `m` from 0 to 127; B is not used. -/
def execZero (m : BitVec 7) (s : State) : Out := dataWrite s (windowAddr s m) 0

/-- `LD A,[..]` over a form (R210). -/
def loadA (o : Operand) (s : State) : Out :=
  onNext (readOperand s o) fun r => .next { r.2 with a := r.1 }

/-- `LD A, [m]` (R210). -/
def execLdADirect (m : BitVec 7) (s : State) : Out := loadA (.direct m) s

/-- `LD A, [A:B]` (R210). -/
def execLdAPtr (s : State) : Out := loadA .ptr s

/-- `LD A, [m:B]` (R210). -/
def execLdAPage (m : BitVec 7) (s : State) : Out := loadA (.page m) s

/-- `LD B,[..]` over a form (R211). -/
def loadB (o : Operand) (s : State) : Out :=
  onNext (readOperand s o) fun r => .next { r.2 with b := r.1 }

/-- `LD B, [m]` (R211). -/
def execLdBDirect (m : BitVec 7) (s : State) : Out := loadB (.direct m) s

/-- `LD B, [A:B]` (R211). -/
def execLdBPtr (s : State) : Out := loadB .ptr s

/-- `LD B, [m:B]` (R211). -/
def execLdBPage (m : BitVec 7) (s : State) : Out := loadB (.page m) s

/-- `LD C,[..]` over a form (R212). -/
def loadC (o : Operand) (s : State) : Out :=
  onNext (readOperand s o) fun r => .next { r.2 with c := r.1 }

/-- `LD C, [m]` (R212). -/
def execLdCDirect (m : BitVec 7) (s : State) : Out := loadC (.direct m) s

/-- `LD C, [A:B]` (R212). -/
def execLdCPtr (s : State) : Out := loadC .ptr s

/-- `LD C, [m:B]` (R212). -/
def execLdCPage (m : BitVec 7) (s : State) : Out := loadC (.page m) s

/-- STACP over a source form: `[A:C]` from the source, then B and C step (R220). -/
def copyToACStep (o : Operand) (s : State) : Out :=
  onNext (readOperand s o) fun r =>
  onNext (checkedWrite r.2 (addrAC s) r.1) fun t =>
  .next { t with b := s.b + 1, c := s.c + 1 }

/-- `STACP [m]` (R220). -/
def execStacpDirect (m : BitVec 7) (s : State) : Out := copyToACStep (.direct m) s

/-- `STACP [A:B]` (R220). -/
def execStacpPtr (s : State) : Out := copyToACStep .ptr s

/-- `STACP [m:B]` (R220). -/
def execStacpPage (m : BitVec 7) (s : State) : Out := copyToACStep (.page m) s

/-- STAB over a source form: `[A:B]` from the source (R221). -/
def copyToAB (o : Operand) (s : State) : Out :=
  onNext (readOperand s o) fun r => checkedWrite r.2 (pair s.a s.b) r.1

/-- `STAB [m]` (R221). -/
def execStabDirect (m : BitVec 7) (s : State) : Out := copyToAB (.direct m) s

/-- `STAB [m:B]` (R221). -/
def execStabPage (m : BitVec 7) (s : State) : Out := copyToAB (.page m) s

/-- `STAC [A:B]` (R222). -/
def execStacPtr (s : State) : Out :=
  onNext (readOperand s .ptr) fun r => checkedWrite r.2 (addrAC s) r.1

/-- STABP over a source form: as STAB, then B steps (R225). -/
def copyToABStep (o : Operand) (s : State) : Out :=
  onNext (copyToAB o s) fun t => .next { t with b := s.b + 1 }

/-- `STABP [m]` (R225). -/
def execStabpDirect (m : BitVec 7) (s : State) : Out := copyToABStep (.direct m) s

/-- `STABP [m:B]` (R225). -/
def execStabpPage (m : BitVec 7) (s : State) : Out := copyToABStep (.page m) s

/-- `STZCP [A:B]` (R226). `[C]` has no offset and no check. -/
def execStzcpPtr (s : State) : Out :=
  onNext (readOperand s .ptr) fun r =>
  onNext (dataWrite r.2 (addrC s) r.1) fun t =>
  .next { t with b := s.b + 1, c := s.c + 1 }

end Sys2Proof.Machine
end

