-- ==== Sys2Proof/Machine/System.lean ====
section
/-!
DEFINITION. NOP and the OP = 01 group (spec/40_system.md), the counter already at `nxt` when a meaning runs (R28, R140).
-/

namespace Sys2Proof.Machine

open Sys2Proof

/-- `NOP, its operand byte ignored` (R141). -/
def execNop (_xx : Byte) (s : State) : Out := .next s

/-- `MULX` (R142). `p = A * C + [0]`, the high byte to `[0]`, the low byte to A. -/
def execMulx (s : State) : Out :=
  if s.cfg.hasMulx then
    onNext (dataRead s (windowAddr s 0)) fun m =>
    onNext (dataWrite s (windowAddr s 0) ((mulAdd s.a s.c m).extractLsb' 8 8)) fun t =>
    .next { t with a := (mulAdd s.a s.c m).extractLsb' 0 8 }
  else .refused .optionAbsent

/-- `LD A,B` (R143). -/
def execLdAFromB (s : State) : Out := .next { s with a := s.b }

/-- `LD B,A` (R144). -/
def execLdBFromA (s : State) : Out := .next { s with b := s.a }

/-- `SWAP` (R145). -/
def execSwap (s : State) : Out := .next { s with a := s.b, b := s.a }

/-- `MUL` (R146). `C:A <- A * C`. -/
def execMul (s : State) : Out :=
  if s.cfg.hasMul then
    .next { s with
      c := (mulAdd s.a s.c 0).extractLsb' 8 8
      a := (mulAdd s.a s.c 0).extractLsb' 0 8 }
  else .refused .optionAbsent

/-- `LD B,C` (R147). -/
def execLdBFromC (s : State) : Out := .next { s with b := s.c }

/-- `GETPC` (R148). The register PC, not the active counter. -/
def execGetpc (s : State) : Out := .next (setAB s (ctrIndex s.pc))

/-- `GETMC` (R149). -/
def execGetmc (s : State) : Out := .next (setAB s (ctrIndex s.mc))

/-- `SETPC` (R150). -/
def execSetpc (s : State) : Out := .next { s with pc := indexTarget s.cfg (pair s.a s.b) }

/-- `SETMC` (R151). -/
def execSetmc (s : State) : Out := .next { s with mc := indexTarget s.cfg (pair s.a s.b) }

/-- `USERMODE k` (R152). -/
def execUsermode (k : BitVec 4) (s : State) : Out :=
  if k.toNat ≤ 1 then .next (setUser s (k == 1)) else .refused .usermodeRange

/-- `OFFSET k` (R153). -/
def execOffset (k : BitVec 4) (s : State) : Out :=
  if k.toNat ≤ 3 then .next { s with ofBits := k.extractLsb' 0 2 } else .refused .offsetRange

/-- `GETSTAT` (R154). -/
def execGetstat (s : State) : Out := .next { s with a := statusByte s }

/-- `GETVER` (R155). -/
def execGetver (s : State) : Out := .next { s with c := s.cfg.versionValue.getD Config.freeVersion }

/-- `GETID` (R156). -/
def execGetid (s : State) : Out := .next { s with c := s.cfg.idValue.getD Config.freeId }

/-- `CPUINFO` (R157). -/
def execCpuinfo (s : State) : Out := .next { s with c := s.cfg.cpuinfoValue.getD Config.freeCpuinfo }

/-- `CLEAR k` (R158). -/
def execClear (k : BitVec 4) (s : State) : Out :=
  if k = 1 then .next { s with ae := false } else .refused .clearCause

/-- `(LOAD)` (R159). No operation is described anywhere. -/
def execLoad (_s : State) : Out := .refused .loadSaveUndescribed

/-- `(SAVE)` (R159). No operation is described anywhere. -/
def execSave (_s : State) : Out := .refused .loadSaveUndescribed

/-- `CLC` (R160). -/
def execClc (s : State) : Out := .next { s with cf := false }

/-- `PMEMACC` (R161). In the TINY model its one effect is the write it suppresses in user mode (log entry 31). -/
def execPmemacc (s : State) : Out :=
  if s.cfg.hasPmemacc then .next { s with pacc := true } else .refused .optionAbsent

/-- `DISABLE` (R163). -/
def execDisable (s : State) : Out := .next { s with ef := false }

/-- `ENABLE` (R164). -/
def execEnable (s : State) : Out := .next { s with ef := true }

/-- `INPUTA` (R165). -/
def execInputa (s : State) : Out := .next { afterPortRead s s.c with a := portByte s }

/-- `OUTPUTB` (R166). -/
def execOutputb (s : State) : Out := .next (portWrite s s.c s.b)

/-- `INOUT` (R167). Out then In, on the same port. -/
def execInout (s : State) : Out := .next { afterPortRead (portWrite s s.c s.b) s.c with a := portByte s }

end Sys2Proof.Machine
end

