-- ==== Sys2Proof/Machine/MacroEnd.lean ====
section
/-!
DEFINITION. The end word of a hard macro: it executes its own instruction, then MF <- 0 (spec/46_opmsb_hardmacro.md R371),
and the fast-mode effect on B (R361).
-/

namespace Sys2Proof.Machine

open Sys2Proof

/-- R108 step 4: the fast-mode effect on B, from the B of before the instruction (R361). -/
def applyBMod (d : BMod) (bBefore : Byte) (t : State) : State :=
  { t with
    b := match d with
      | .own => t.b
      | .keep => bBefore
      | .inc => bBefore + 1 }

/-- The meaning of an instruction that is no hard macro end, as `exec` gives it: what an end word runs. A hard macro entry is never
the instruction of an end word, since its macro bit is taken as 0 (R371, R372). -/
def execOrdinary (i : Instr) (s : State) : Out :=
  match i with
  | .nop xx => execNop xx s
  | .mulx => execMulx s
  | .ldAFromB => execLdAFromB s
  | .ldBFromA => execLdBFromA s
  | .swap => execSwap s
  | .mul => execMul s
  | .ldBFromC => execLdBFromC s
  | .getpc => execGetpc s
  | .getmc => execGetmc s
  | .setpc => execSetpc s
  | .setmc => execSetmc s
  | .usermode k => execUsermode k s
  | .offset k => execOffset k s
  | .getstat => execGetstat s
  | .getver => execGetver s
  | .getid => execGetid s
  | .cpuinfo => execCpuinfo s
  | .clear k => execClear k s
  | .load => execLoad s
  | .save => execSave s
  | .clc => execClc s
  | .pmemacc => execPmemacc s
  | .int k => execInt k s
  | .disable => execDisable s
  | .enable => execEnable s
  | .inputa => execInputa s
  | .outputb => execOutputb s
  | .inout => execInout s
  | .ldAImm n => execLdAImm n s
  | .ldBImm n => execLdBImm n s
  | .ldCImm n => execLdCImm n s
  | .setflagDirect m => execSetflagDirect m s
  | .setflagPtr => execSetflagPtr s
  | .setflagPage m => execSetflagPage m s
  | .stDirectA m => execStDirectA m s
  | .stPageA m => execStPageA m s
  | .stDirectB m => execStDirectB m s
  | .zero m => execZero m s
  | .shlDirect m => execShlDirect m s
  | .shlPtr => execShlPtr s
  | .shlPage m => execShlPage m s
  | .shrDirect m => execShrDirect m s
  | .shrPtr => execShrPtr s
  | .shrPage m => execShrPage m s
  | .andDirectA m => execAndDirectA m s
  | .andPtrC => execAndPtrC s
  | .andPageA m => execAndPageA m s
  | .stDirectC m => execStDirectC m s
  | .stPtrC => execStPtrC s
  | .stPageC m => execStPageC m s
  | .xorDirectA m => execXorDirectA m s
  | .xorPtrC => execXorPtrC s
  | .xorPageA m => execXorPageA m s
  | .getflagDirect m => execGetflagDirect m s
  | .getflagPtr => execGetflagPtr s
  | .getflagPage m => execGetflagPage m s
  | .orDirectA m => execOrDirectA m s
  | .orPtrC => execOrPtrC s
  | .orPageA m => execOrPageA m s
  | .jmpDirect m => execJmpDirect m s
  | .jmpC0 => execJmpC0 s
  | .jmpC1 => execJmpC1 s
  | .jmpZ0 => execJmpZ0 s
  | .jmpZ1 => execJmpZ1 s
  | .jmpPtr => execJmpPtr s
  | .jmpPage m => execJmpPage m s
  | .balDirect m => execBalDirect m s
  | .balC0 => execBalC0 s
  | .balC1 => execBalC1 s
  | .balZ0 => execBalZ0 s
  | .balZ1 => execBalZ1 s
  | .balPtr => execBalPtr s
  | .balPage m => execBalPage m s
  | .jrRel n => execJrRel n s
  | .jrB => execJrB s
  | .brRel n => execBrRel n s
  | .brB => execBrB s
  | .jrC0Rel n => execJrC0Rel n s
  | .jrC0B => execJrC0B s
  | .brC0Rel n => execBrC0Rel n s
  | .brC0B => execBrC0B s
  | .jrC1Rel n => execJrC1Rel n s
  | .jrC1B => execJrC1B s
  | .brC1Rel n => execBrC1Rel n s
  | .brC1B => execBrC1B s
  | .jrZ0Rel n => execJrZ0Rel n s
  | .jrZ0B => execJrZ0B s
  | .brZ0Rel n => execBrZ0Rel n s
  | .brZ0B => execBrZ0B s
  | .jrZ1Rel n => execJrZ1Rel n s
  | .jrZ1B => execJrZ1B s
  | .brZ1Rel n => execBrZ1Rel n s
  | .brZ1B => execBrZ1B s
  | .inDirect m => execInDirect m s
  | .inPtr => execInPtr s
  | .inPage m => execInPage m s
  | .outDirect m => execOutDirect m s
  | .outPtr => execOutPtr s
  | .outPage m => execOutPage m s
  | .reti m => execReti m s
  | .incDirect m => execIncDirect m s
  | .incPtr => execIncPtr s
  | .incPage m => execIncPage m s
  | .inccDirect m => execInccDirect m s
  | .inccPtr => execInccPtr s
  | .inccPage m => execInccPage m s
  | .incxDirect m => execIncxDirect m s
  | .incxPtr => execIncxPtr s
  | .incxPage m => execIncxPage m s
  | .incxcDirect m => execIncxcDirect m s
  | .incxcPtr => execIncxcPtr s
  | .incxcPage m => execIncxcPage m s
  | .addDirectA m => execAddDirectA m s
  | .addPtrC => execAddPtrC s
  | .addPageA m => execAddPageA m s
  | .addcDirectA m => execAddcDirectA m s
  | .addcPtrC => execAddcPtrC s
  | .addcPageA m => execAddcPageA m s
  | .addADirect m => execAddADirect m s
  | .addAC => execAddAC s
  | .addAPage m => execAddAPage m s
  | .addcADirect m => execAddcADirect m s
  | .addcAC => execAddcAC s
  | .addcAPage m => execAddcAPage m s
  | .shlcDirect m => execShlcDirect m s
  | .shlcPtr => execShlcPtr s
  | .shlcPage m => execShlcPage m s
  | .shrcDirect m => execShrcDirect m s
  | .shrcPtr => execShrcPtr s
  | .shrcPage m => execShrcPage m s
  | .ldADirect m => execLdADirect m s
  | .ldAPtr => execLdAPtr s
  | .ldAPage m => execLdAPage m s
  | .ldBDirect m => execLdBDirect m s
  | .ldBPtr => execLdBPtr s
  | .ldBPage m => execLdBPage m s
  | .ldCDirect m => execLdCDirect m s
  | .ldCPtr => execLdCPtr s
  | .ldCPage m => execLdCPage m s
  | .stacpDirect m => execStacpDirect m s
  | .stacpPtr => execStacpPtr s
  | .stacpPage m => execStacpPage m s
  | .stabDirect m => execStabDirect m s
  | .stacPtr => execStacPtr s
  | .stabPage m => execStabPage m s
  | .stabpDirect m => execStabpDirect m s
  | .stzcpPtr => execStzcpPtr s
  | .stabpPage m => execStabpPage m s
  | .decDirect m => execDecDirect m s
  | .decPtr => execDecPtr s
  | .decPage m => execDecPage m s
  | .deccDirect m => execDeccDirect m s
  | .deccPtr => execDeccPtr s
  | .deccPage m => execDeccPage m s
  | .decxDirect m => execDecxDirect m s
  | .decxPtr => execDecxPtr s
  | .decxPage m => execDecxPage m s
  | .decxcDirect m => execDecxcDirect m s
  | .decxcPtr => execDecxcPtr s
  | .decxcPage m => execDecxcPage m s
  | .subDirectA m => execSubDirectA m s
  | .subPtrC => execSubPtrC s
  | .subPageA m => execSubPageA m s
  | .subcDirectA m => execSubcDirectA m s
  | .subcPtrC => execSubcPtrC s
  | .subcPageA m => execSubcPageA m s
  | .subADirect m => execSubADirect m s
  | .subAC => execSubAC s
  | .subAPage m => execSubAPage m s
  | .subcADirect m => execSubcADirect m s
  | .subcAC => execSubcAC s
  | .subcAPage m => execSubcAPage m s
  | .loopdecZero => execLoopdecZero s
  | .loopdecRel n => execLoopdecRel n s
  | .loopshrc => execLoopshrc s
  | .loopzero => execLoopzero s
  | .loopincRel n => execLoopincRel n s
  | .loopshlc => execLoopshlc s
  | .andADirect m => execAndADirect m s
  | .andAC => execAndAC s
  | .andAPage m => execAndAPage m s
  | .andAImm n => execAndAImm n s
  | .xorADirect m => execXorADirect m s
  | .xorAC => execXorAC s
  | .xorAPage m => execXorAPage m s
  | .xorAImm n => execXorAImm n s
  | .orADirect m => execOrADirect m s
  | .orAC => execOrAC s
  | .orAPage m => execOrAPage m s
  | .orAImm n => execOrAImm n s
  | .ldxAImm n => execLdxAImm n s
  | .ldxADirect m => execLdxADirect m s
  | .ldxAPtr => execLdxAPtr s
  | .ldxAPage m => execLdxAPage m s
  | .hmacro p xx => execHmacro p xx s
  | .macroEnd _ _ _ => .refused .macroInMillicode

/-- The instructions an end word may not be: the branches and loops (OP 10 to 1B, 38, 39), SETMC, INT and RETI (R371). -/
def endForbidden (op : BitVec 6) (xx : Byte) : Bool :=
  (decide (0x10 ≤ op.toNat) && decide (op.toNat ≤ 0x1B)) || op == 0x38 || op == 0x39 || op == 0x1F
    || (op == 0x01 && (xx == 0x28 || decide (0xD0 ≤ xx.toNat ∧ xx.toNat ≤ 0xDF)))

/-- The hard macro end (R371): the instruction of `(opmsb, OP, xx)` with the macro bit taken as 0, with its fast-mode effect on B,
then MF <- 0, so that PC is the active counter again. -/
def execMacroEnd (opmsb : Bool) (op : BitVec 6) (xx : Byte) (s : State) : Out :=
  if s.ifBit then .refused .macroInInterrupt
  else if !s.mf then .refused .macroEndOutsideMillicode
  else
    match decodeUnmacroed s.cfg opmsb op xx with
    | .error e => .refused (.encoding e)
    | .ok d =>
      if endForbidden op xx then .refused .macroEndForbidden
      else onNext (execOrdinary d.instr s) fun t => .next { applyBMod d.bmod s.b t with mf := false }

end Sys2Proof.Machine
end

