-- ==== Sys2Proof/Machine/Dispatch.lean ====
section
/-!
DEFINITION. One arm per instruction: which meaning each constructor of `Instr` has. The meanings are in Machine/<Family>.lean.
-/

namespace Sys2Proof.Machine

open Sys2Proof

def exec (i : Instr) (s : State) : Host.Outcome State Fault Refusal :=
  match i with
  | .nop xx => Sys2Proof.Machine.execNop xx s
  | .mulx => Sys2Proof.Machine.execMulx s
  | .ldAFromB => Sys2Proof.Machine.execLdAFromB s
  | .ldBFromA => Sys2Proof.Machine.execLdBFromA s
  | .swap => Sys2Proof.Machine.execSwap s
  | .mul => Sys2Proof.Machine.execMul s
  | .ldBFromC => Sys2Proof.Machine.execLdBFromC s
  | .getpc => Sys2Proof.Machine.execGetpc s
  | .getmc => Sys2Proof.Machine.execGetmc s
  | .setpc => Sys2Proof.Machine.execSetpc s
  | .setmc => Sys2Proof.Machine.execSetmc s
  | .usermode k => Sys2Proof.Machine.execUsermode k s
  | .offset k => Sys2Proof.Machine.execOffset k s
  | .getstat => Sys2Proof.Machine.execGetstat s
  | .getver => Sys2Proof.Machine.execGetver s
  | .getid => Sys2Proof.Machine.execGetid s
  | .cpuinfo => Sys2Proof.Machine.execCpuinfo s
  | .clear k => Sys2Proof.Machine.execClear k s
  | .load => Sys2Proof.Machine.execLoad s
  | .save => Sys2Proof.Machine.execSave s
  | .clc => Sys2Proof.Machine.execClc s
  | .pmemacc => Sys2Proof.Machine.execPmemacc s
  | .int k => Sys2Proof.Machine.execInt k s
  | .disable => Sys2Proof.Machine.execDisable s
  | .enable => Sys2Proof.Machine.execEnable s
  | .inputa => Sys2Proof.Machine.execInputa s
  | .outputb => Sys2Proof.Machine.execOutputb s
  | .inout => Sys2Proof.Machine.execInout s
  | .ldAImm n => Sys2Proof.Machine.execLdAImm n s
  | .ldBImm n => Sys2Proof.Machine.execLdBImm n s
  | .ldCImm n => Sys2Proof.Machine.execLdCImm n s
  | .setflagDirect m => Sys2Proof.Machine.execSetflagDirect m s
  | .setflagPtr => Sys2Proof.Machine.execSetflagPtr s
  | .setflagPage m => Sys2Proof.Machine.execSetflagPage m s
  | .stDirectA m => Sys2Proof.Machine.execStDirectA m s
  | .stPageA m => Sys2Proof.Machine.execStPageA m s
  | .stDirectB m => Sys2Proof.Machine.execStDirectB m s
  | .zero m => Sys2Proof.Machine.execZero m s
  | .shlDirect m => Sys2Proof.Machine.execShlDirect m s
  | .shlPtr => Sys2Proof.Machine.execShlPtr s
  | .shlPage m => Sys2Proof.Machine.execShlPage m s
  | .shrDirect m => Sys2Proof.Machine.execShrDirect m s
  | .shrPtr => Sys2Proof.Machine.execShrPtr s
  | .shrPage m => Sys2Proof.Machine.execShrPage m s
  | .andDirectA m => Sys2Proof.Machine.execAndDirectA m s
  | .andPtrC => Sys2Proof.Machine.execAndPtrC s
  | .andPageA m => Sys2Proof.Machine.execAndPageA m s
  | .stDirectC m => Sys2Proof.Machine.execStDirectC m s
  | .stPtrC => Sys2Proof.Machine.execStPtrC s
  | .stPageC m => Sys2Proof.Machine.execStPageC m s
  | .xorDirectA m => Sys2Proof.Machine.execXorDirectA m s
  | .xorPtrC => Sys2Proof.Machine.execXorPtrC s
  | .xorPageA m => Sys2Proof.Machine.execXorPageA m s
  | .getflagDirect m => Sys2Proof.Machine.execGetflagDirect m s
  | .getflagPtr => Sys2Proof.Machine.execGetflagPtr s
  | .getflagPage m => Sys2Proof.Machine.execGetflagPage m s
  | .orDirectA m => Sys2Proof.Machine.execOrDirectA m s
  | .orPtrC => Sys2Proof.Machine.execOrPtrC s
  | .orPageA m => Sys2Proof.Machine.execOrPageA m s
  | .jmpDirect m => Sys2Proof.Machine.execJmpDirect m s
  | .jmpC0 => Sys2Proof.Machine.execJmpC0 s
  | .jmpC1 => Sys2Proof.Machine.execJmpC1 s
  | .jmpZ0 => Sys2Proof.Machine.execJmpZ0 s
  | .jmpZ1 => Sys2Proof.Machine.execJmpZ1 s
  | .jmpPtr => Sys2Proof.Machine.execJmpPtr s
  | .jmpPage m => Sys2Proof.Machine.execJmpPage m s
  | .balDirect m => Sys2Proof.Machine.execBalDirect m s
  | .balC0 => Sys2Proof.Machine.execBalC0 s
  | .balC1 => Sys2Proof.Machine.execBalC1 s
  | .balZ0 => Sys2Proof.Machine.execBalZ0 s
  | .balZ1 => Sys2Proof.Machine.execBalZ1 s
  | .balPtr => Sys2Proof.Machine.execBalPtr s
  | .balPage m => Sys2Proof.Machine.execBalPage m s
  | .jrRel n => Sys2Proof.Machine.execJrRel n s
  | .jrB => Sys2Proof.Machine.execJrB s
  | .brRel n => Sys2Proof.Machine.execBrRel n s
  | .brB => Sys2Proof.Machine.execBrB s
  | .jrC0Rel n => Sys2Proof.Machine.execJrC0Rel n s
  | .jrC0B => Sys2Proof.Machine.execJrC0B s
  | .brC0Rel n => Sys2Proof.Machine.execBrC0Rel n s
  | .brC0B => Sys2Proof.Machine.execBrC0B s
  | .jrC1Rel n => Sys2Proof.Machine.execJrC1Rel n s
  | .jrC1B => Sys2Proof.Machine.execJrC1B s
  | .brC1Rel n => Sys2Proof.Machine.execBrC1Rel n s
  | .brC1B => Sys2Proof.Machine.execBrC1B s
  | .jrZ0Rel n => Sys2Proof.Machine.execJrZ0Rel n s
  | .jrZ0B => Sys2Proof.Machine.execJrZ0B s
  | .brZ0Rel n => Sys2Proof.Machine.execBrZ0Rel n s
  | .brZ0B => Sys2Proof.Machine.execBrZ0B s
  | .jrZ1Rel n => Sys2Proof.Machine.execJrZ1Rel n s
  | .jrZ1B => Sys2Proof.Machine.execJrZ1B s
  | .brZ1Rel n => Sys2Proof.Machine.execBrZ1Rel n s
  | .brZ1B => Sys2Proof.Machine.execBrZ1B s
  | .inDirect m => Sys2Proof.Machine.execInDirect m s
  | .inPtr => Sys2Proof.Machine.execInPtr s
  | .inPage m => Sys2Proof.Machine.execInPage m s
  | .outDirect m => Sys2Proof.Machine.execOutDirect m s
  | .outPtr => Sys2Proof.Machine.execOutPtr s
  | .outPage m => Sys2Proof.Machine.execOutPage m s
  | .reti m => Sys2Proof.Machine.execReti m s
  | .incDirect m => Sys2Proof.Machine.execIncDirect m s
  | .incPtr => Sys2Proof.Machine.execIncPtr s
  | .incPage m => Sys2Proof.Machine.execIncPage m s
  | .inccDirect m => Sys2Proof.Machine.execInccDirect m s
  | .inccPtr => Sys2Proof.Machine.execInccPtr s
  | .inccPage m => Sys2Proof.Machine.execInccPage m s
  | .incxDirect m => Sys2Proof.Machine.execIncxDirect m s
  | .incxPtr => Sys2Proof.Machine.execIncxPtr s
  | .incxPage m => Sys2Proof.Machine.execIncxPage m s
  | .incxcDirect m => Sys2Proof.Machine.execIncxcDirect m s
  | .incxcPtr => Sys2Proof.Machine.execIncxcPtr s
  | .incxcPage m => Sys2Proof.Machine.execIncxcPage m s
  | .addDirectA m => Sys2Proof.Machine.execAddDirectA m s
  | .addPtrC => Sys2Proof.Machine.execAddPtrC s
  | .addPageA m => Sys2Proof.Machine.execAddPageA m s
  | .addcDirectA m => Sys2Proof.Machine.execAddcDirectA m s
  | .addcPtrC => Sys2Proof.Machine.execAddcPtrC s
  | .addcPageA m => Sys2Proof.Machine.execAddcPageA m s
  | .addADirect m => Sys2Proof.Machine.execAddADirect m s
  | .addAC => Sys2Proof.Machine.execAddAC s
  | .addAPage m => Sys2Proof.Machine.execAddAPage m s
  | .addcADirect m => Sys2Proof.Machine.execAddcADirect m s
  | .addcAC => Sys2Proof.Machine.execAddcAC s
  | .addcAPage m => Sys2Proof.Machine.execAddcAPage m s
  | .shlcDirect m => Sys2Proof.Machine.execShlcDirect m s
  | .shlcPtr => Sys2Proof.Machine.execShlcPtr s
  | .shlcPage m => Sys2Proof.Machine.execShlcPage m s
  | .shrcDirect m => Sys2Proof.Machine.execShrcDirect m s
  | .shrcPtr => Sys2Proof.Machine.execShrcPtr s
  | .shrcPage m => Sys2Proof.Machine.execShrcPage m s
  | .ldADirect m => Sys2Proof.Machine.execLdADirect m s
  | .ldAPtr => Sys2Proof.Machine.execLdAPtr s
  | .ldAPage m => Sys2Proof.Machine.execLdAPage m s
  | .ldBDirect m => Sys2Proof.Machine.execLdBDirect m s
  | .ldBPtr => Sys2Proof.Machine.execLdBPtr s
  | .ldBPage m => Sys2Proof.Machine.execLdBPage m s
  | .ldCDirect m => Sys2Proof.Machine.execLdCDirect m s
  | .ldCPtr => Sys2Proof.Machine.execLdCPtr s
  | .ldCPage m => Sys2Proof.Machine.execLdCPage m s
  | .stacpDirect m => Sys2Proof.Machine.execStacpDirect m s
  | .stacpPtr => Sys2Proof.Machine.execStacpPtr s
  | .stacpPage m => Sys2Proof.Machine.execStacpPage m s
  | .stabDirect m => Sys2Proof.Machine.execStabDirect m s
  | .stacPtr => Sys2Proof.Machine.execStacPtr s
  | .stabPage m => Sys2Proof.Machine.execStabPage m s
  | .stabpDirect m => Sys2Proof.Machine.execStabpDirect m s
  | .stzcpPtr => Sys2Proof.Machine.execStzcpPtr s
  | .stabpPage m => Sys2Proof.Machine.execStabpPage m s
  | .decDirect m => Sys2Proof.Machine.execDecDirect m s
  | .decPtr => Sys2Proof.Machine.execDecPtr s
  | .decPage m => Sys2Proof.Machine.execDecPage m s
  | .deccDirect m => Sys2Proof.Machine.execDeccDirect m s
  | .deccPtr => Sys2Proof.Machine.execDeccPtr s
  | .deccPage m => Sys2Proof.Machine.execDeccPage m s
  | .decxDirect m => Sys2Proof.Machine.execDecxDirect m s
  | .decxPtr => Sys2Proof.Machine.execDecxPtr s
  | .decxPage m => Sys2Proof.Machine.execDecxPage m s
  | .decxcDirect m => Sys2Proof.Machine.execDecxcDirect m s
  | .decxcPtr => Sys2Proof.Machine.execDecxcPtr s
  | .decxcPage m => Sys2Proof.Machine.execDecxcPage m s
  | .subDirectA m => Sys2Proof.Machine.execSubDirectA m s
  | .subPtrC => Sys2Proof.Machine.execSubPtrC s
  | .subPageA m => Sys2Proof.Machine.execSubPageA m s
  | .subcDirectA m => Sys2Proof.Machine.execSubcDirectA m s
  | .subcPtrC => Sys2Proof.Machine.execSubcPtrC s
  | .subcPageA m => Sys2Proof.Machine.execSubcPageA m s
  | .subADirect m => Sys2Proof.Machine.execSubADirect m s
  | .subAC => Sys2Proof.Machine.execSubAC s
  | .subAPage m => Sys2Proof.Machine.execSubAPage m s
  | .subcADirect m => Sys2Proof.Machine.execSubcADirect m s
  | .subcAC => Sys2Proof.Machine.execSubcAC s
  | .subcAPage m => Sys2Proof.Machine.execSubcAPage m s
  | .loopdecZero => Sys2Proof.Machine.execLoopdecZero s
  | .loopdecRel n => Sys2Proof.Machine.execLoopdecRel n s
  | .loopshrc => Sys2Proof.Machine.execLoopshrc s
  | .loopzero => Sys2Proof.Machine.execLoopzero s
  | .loopincRel n => Sys2Proof.Machine.execLoopincRel n s
  | .loopshlc => Sys2Proof.Machine.execLoopshlc s
  | .andADirect m => Sys2Proof.Machine.execAndADirect m s
  | .andAC => Sys2Proof.Machine.execAndAC s
  | .andAPage m => Sys2Proof.Machine.execAndAPage m s
  | .andAImm n => Sys2Proof.Machine.execAndAImm n s
  | .xorADirect m => Sys2Proof.Machine.execXorADirect m s
  | .xorAC => Sys2Proof.Machine.execXorAC s
  | .xorAPage m => Sys2Proof.Machine.execXorAPage m s
  | .xorAImm n => Sys2Proof.Machine.execXorAImm n s
  | .orADirect m => Sys2Proof.Machine.execOrADirect m s
  | .orAC => Sys2Proof.Machine.execOrAC s
  | .orAPage m => Sys2Proof.Machine.execOrAPage m s
  | .orAImm n => Sys2Proof.Machine.execOrAImm n s
  | .ldxAImm n => Sys2Proof.Machine.execLdxAImm n s
  | .ldxADirect m => Sys2Proof.Machine.execLdxADirect m s
  | .ldxAPtr => Sys2Proof.Machine.execLdxAPtr s
  | .ldxAPage m => Sys2Proof.Machine.execLdxAPage m s
  | .hmacro p xx => Sys2Proof.Machine.execHmacro p xx s
  | .macroEnd opmsb op xx => Sys2Proof.Machine.execMacroEnd opmsb op xx s

end Sys2Proof.Machine
end

