-- ==== Sys2Proof/Machine/Fetch.lean ====
section
/-!
DEFINITION. Instruction fetch and what the cycle does around an instruction (spec/10_state.md R28, spec/20_memory.md
R65, R74, R80).
-/

namespace Sys2Proof.Machine

open Sys2Proof

/-- Whether the store of the instruction before this one left an old byte at this address (R80). -/
def staleByte (s : State) (p : Nat) : Option Byte :=
  match s.stale with
  | some cell => if cell.1 = p then some cell.2 else none
  | none => none

/-- `IFetch(a)` at the physical address `p = a`: never subject to OF or to the user-mode restriction (R62, R65). A byte that the
instruction before this one stored is fetched old or new, by a free choice (R80). -/
def fetchByte (s : State) (p : Nat) : Host.Outcome (Byte × State) Fault Refusal :=
  if p < s.cfg.memBytes then
    match staleByte s p with
    | some old => .next (if Config.freeBit s.draws then old else Memory.read s.mem p, afterDraw s)
    | none => .next (Memory.read s.mem p, s)
  else .refused (.absentMemory p)

/-- The word at the active counter, its operand byte first (R28, R74). -/
def fetchWord (s : State) : Host.Outcome (InstrWord × State) Fault Refusal :=
  onNext (fetchByte s (ctr s).toNat) fun r1 =>
  onNext (fetchByte r1.2 (ctrSecond s).toNat) fun r2 =>
  .next (wordOfBytes r1.1 r2.1, r2.2)

/-- `nxt`, the address of the next instruction (R28). -/
def nextAddr (s : State) : Counter := wrapCtr s.cfg ((ctr s).toNat + 2)

/-- `CTR <- nxt; pacc <- PACC; PACC <- 0`, and what a fetch may see of an earlier store is settled (R28, R80). -/
def beginInstr (s : State) : State :=
  { setCtr s (nextAddr s) with
    paccNow := s.pacc
    pacc := false
    stale := none }

/-- What JRA holds after a step: any value of JRAW bits (R24). -/
def jraAfter (s : State) : BitVec 16 := BitVec.ofNat 16 ((Config.freeJra s.cycles).toNat % 2 ^ s.cfg.jraw)

/-- The end of a step: 4 cycles have passed (R470), `pacc` is used up, JRA holds any value, and the environment presents its next
levels, if its script has any left. -/
def endStep (s : State) : State :=
  { s with
    cycles := s.cycles + 4
    jra := jraAfter s
    paccNow := false
    lines := s.lineScript.headD s.lines
    lineScript := s.lineScript.tail }

/-- The word stored at the active counter, the bytes as the hardware stores them (R74), and no earlier store left that its fetch might see. -/
def placeWord (s : State) (first second : Byte) : State :=
  { s with
    mem := Memory.write (Memory.write s.mem (ctr s).toNat first) (ctrSecond s).toNat second
    stale := none }

end Sys2Proof.Machine
end

