-- ==== Sys2Proof/Machine/Cycle.lean ====
section
/-!
DEFINITION. The two things a step of the CPU can be: an interrupt entry, or the execution of one instruction
(spec/10_state.md R28, spec/30_encoding.md R108, spec/60_exceptions.md R402 to R406).
-/

namespace Sys2Proof.Machine

open Sys2Proof

/-- The interrupt entry at a boundary that accepts a request (R404, R406). -/
def takeInterrupt (s : State) : State := enterInterrupt s (requestVector s)

/-- R108 steps 3 to 5 for a decoded word: the instruction, then the fast-mode effect on B. (Step 5, the end of a hard macro, is
the meaning of `macroEnd`.) -/
def runDecoded (d : Decoded) (s : State) : Out :=
  onNext (exec d.instr s) fun t => .next (applyBMod d.bmod s.b t)

/-- Reads the word by R108 and executes it. -/
def runWord (w : InstrWord) (s : State) : Out :=
  match decode s.cfg s.mf s.ifBit w with
  | .error e => .refused (.encoding e)
  | .ok d => runDecoded d (beginInstr s)

/-- The execution of one instruction (R28). -/
def executeNext (s : State) : Out :=
  onNext (fetchWord s) fun r =>
  onNext (runWord r.1 r.2) fun t => .next (endStep t)

end Sys2Proof.Machine
end

