-- ==== Sys2Proof/Machine/Step.lean ====
section
/-!
DEFINITION. One step of the machine (spec/10_state.md R28).
-/

namespace Sys2Proof.Machine

open Sys2Proof

/-- A step is an interrupt entry where one is accepted at the boundary (R402), and the execution of one instruction otherwise. -/
def step (s : State) : Host.Outcome State Fault Refusal :=
  if interruptAccepted s then .next (endStep (takeInterrupt s)) else executeNext s

/-- The state with the table number `w` of `nbits` bits stored where the next instruction is fetched. -/
def State.withFetchWord (s : State) (nbits w : Nat) : State :=
  placeWord s (tableBytes nbits w).1 (tableBytes nbits w).2

end Sys2Proof.Machine
end

