-- ==== Sys2Proof/Safety.lean ====
section
/-!
DEFINITION. The words the statements use: which states a run is in, which operands an instruction can reach, what "it
stores this byte and nothing else" means, and the spec's own lists of what each instruction may write (R22, R45).
-/

namespace Sys2Proof.Machine

open Sys2Proof

/-! ### States -/

/-- The parameters are in the ranges R7 gives them, and the program addresses among them are even (R29 (d)). -/
abbrev ConfigOk (c : Config) : Prop :=
  9 ≤ c.pcw ∧ c.pcw ≤ 17 ∧ c.memBytes ≤ 131072 ∧ c.resetPc.toNat < 2 ^ c.pcw ∧ c.resetPc.toNat % 2 = 0 ∧
    c.macroBase % 2 = 0 ∧ c.macroStride % 2 = 0 ∧ c.aeVector % 2 = 0

/-- A counter value below `2 ^ PCW` and even (R29). -/
abbrev CounterOk (c : Config) (v : Counter) : Prop := v.toNat < 2 ^ c.pcw ∧ v.toNat % 2 = 0

/-- What every step keeps: legal parameters, every counter within its width and even (R23, R29), memory in canonical form and
within the installed memory (R62), UF and AE 0 where USER_MODE is false (R33, R37), TM 0 where HAS_TIMER is false (R38), and no
`pacc` left over between steps (R28). -/
abbrev Inv (s : State) : Prop :=
  ConfigOk s.cfg ∧ CounterOk s.cfg s.pc ∧ CounterOk s.cfg s.mc ∧ CounterOk s.cfg s.ic ∧
    Memory.wf s.mem = true ∧ Memory.below s.cfg.memBytes s.mem = true ∧
    (s.cfg.userMode = false → s.uf = false ∧ s.ae = false) ∧ (s.cfg.hasTimer = false → s.tm = false) ∧
    s.paccNow = false

/-! ### Operands -/

/-- The instruction of a form, from the constructors of its three rows (R68). -/
def atForm (o : Operand) (direct : BitVec 7 → Instr) (ptr : Instr) (page : BitVec 7 → Instr) : Instr :=
  match o with
  | .direct m => direct m
  | .ptr => ptr
  | .page m => page m

/-- The physical address of the operand (R62, R68). -/
def operandAddr (s : State) (o : Operand) : Nat := physData s (ea s o)

/-- The operand byte in memory. -/
def operandByte (s : State) (o : Operand) : Byte := Memory.read s.mem (operandAddr s o)

/-- The byte at a data address. -/
def dataByte (s : State) (d : DataAddr) : Byte := Memory.read s.mem (physData s d)

/-- Installed memory holds the byte at a data address (R63). -/
abbrev Installed (s : State) (d : DataAddr) : Prop := physData s d < s.cfg.memBytes

/-- The operand can be read without a violation (R63, R71). -/
abbrev Readable (s : State) (o : Operand) : Prop := operandViolates s o = false ∧ Installed s (ea s o)

/-- The operand can be read and written: no violation, and no write suppressed (R67, R71). -/
abbrev Writable (s : State) (o : Operand) : Prop := Readable s o ∧ writeSuppressed s = false

/-- A data address that a checked write reaches (R67, R71). -/
abbrev StoreReaches (s : State) (d : DataAddr) : Prop :=
  violates s d = false ∧ Installed s d ∧ writeSuppressed s = false

/-- The source byte of the `A,` forms: register C in the form `xx = 127` (R245). -/
def sourceByte (s : State) (o : Operand) : Byte :=
  match o with
  | .ptr => s.c
  | .direct m => operandByte s (.direct m)
  | .page m => operandByte s (.page m)

/-- The source of an `A,` form can be read. -/
abbrev SourceReadable (s : State) (o : Operand) : Prop := o = .ptr ∨ Readable s o

/-- The register operand of the two-operand memory forms: C in the form `[A:B]`, A in the other two (R240, R265). -/
def memoryPartner (s : State) (o : Operand) : Byte := if o = .ptr then s.c else s.a

/-! ### Rows

The constructors of the three rows of a group, for the statements that say one thing of many groups. -/

/-- The rows `[m]`, `[A:B]`, `[m:B]` of one group. -/
abbrev Forms := (BitVec 7 → Instr) × Instr × (BitVec 7 → Instr)

/-- The instruction of the group at an operand. -/
def formOf (f : Forms) (o : Operand) : Instr := atForm o f.1 f.2.1 f.2.2

/-- The groups that read a byte, compute, and write it back, and write no register: shifts, logic, arithmetic to memory (R230, R240,
R261, R265, R270, R274). -/
def modifyRows : List Forms :=
  [(.shlDirect, .shlPtr, .shlPage), (.shrDirect, .shrPtr, .shrPage), (.shlcDirect, .shlcPtr, .shlcPage),
    (.shrcDirect, .shrcPtr, .shrcPage), (.incDirect, .incPtr, .incPage), (.inccDirect, .inccPtr, .inccPage),
    (.decDirect, .decPtr, .decPage), (.deccDirect, .deccPtr, .deccPage), (.andDirectA, .andPtrC, .andPageA),
    (.xorDirectA, .xorPtrC, .xorPageA), (.orDirectA, .orPtrC, .orPageA), (.addDirectA, .addPtrC, .addPageA),
    (.addcDirectA, .addcPtrC, .addcPageA), (.subDirectA, .subPtrC, .subPageA), (.subcDirectA, .subcPtrC, .subcPageA)]

/-- The groups that do the same and move the old byte to A and the old A to B (R263, R264, R272, R273). -/
def exchangeRows : List Forms :=
  [(.incxDirect, .incxPtr, .incxPage), (.incxcDirect, .incxcPtr, .incxcPage),
    (.decxDirect, .decxPtr, .decxPage), (.decxcDirect, .decxcPtr, .decxcPage)]

/-- The groups that read a byte and write none: the loads, LDX, SETFLAG, OUT (R203, R210, R211, R212, R352, R364). -/
def readRows : List Forms :=
  [(.ldADirect, .ldAPtr, .ldAPage), (.ldBDirect, .ldBPtr, .ldBPage), (.ldCDirect, .ldCPtr, .ldCPage),
    (.ldxADirect, .ldxAPtr, .ldxAPage), (.setflagDirect, .setflagPtr, .setflagPage), (.outDirect, .outPtr, .outPage)]

/-- The groups that write a byte and read none: GETFLAG, `ST [..],C`, IN (R204, R207, R351). -/
def storeRows : List Forms :=
  [(.getflagDirect, .getflagPtr, .getflagPage), (.stDirectC, .stPtrC, .stPageC), (.inDirect, .inPtr, .inPage)]

/-- The `A,[m]` rows, with their operand from memory (R245, R267, R276). -/
def sourceDirectRows : List (BitVec 7 → Instr) :=
  [.andADirect, .xorADirect, .orADirect, .addADirect,
    .addcADirect, .subADirect, .subcADirect]

/-- The `A,[m:B]` rows (R245, R267, R276). -/
def sourcePageRows : List (BitVec 7 → Instr) :=
  [.andAPage, .xorAPage, .orAPage, .addAPage,
    .addcAPage, .subAPage, .subcAPage]

/-! ### Fetch -/

/-- No interrupt is accepted at this boundary, and the two bytes of the next instruction are installed and were not stored by the
instruction before: the fetch delivers what memory holds (R28, R63, R80, R402). -/
abbrev FetchSettled (s : State) : Prop :=
  interruptAccepted s = false ∧ staleByte s (ctr s).toNat = none ∧ staleByte s (ctrSecond s).toNat = none ∧
    (ctr s).toNat < s.cfg.memBytes ∧ (ctrSecond s).toNat < s.cfg.memBytes

/-- The word that memory holds at the active counter (R28, R74). -/
def wordAtCounter (s : State) : InstrWord :=
  wordOfBytes (Memory.read s.mem (ctr s).toNat) (Memory.read s.mem (ctrSecond s).toNat)

/-! ### Program addresses -/

/-- `(nxt + k) mod 2^PCW`, `nxt` being what the active counter holds while an instruction executes (R28, R301). -/
def nxtPlus (s : State) (k : Int) : Counter := BitVec.ofInt 17 (((ctr s).toNat + k) % ((2 ^ s.cfg.pcw : Nat) : Int))

/-- `(n × 2) mod 2^PCW`, the byte address of the instruction index `n` (R103, R301). -/
def indexAddr (s : State) (n : Nat) : Counter := BitVec.ofNat 17 (n * 2 % 2 ^ s.cfg.pcw)

/-- From `s`, the branch to `v` with the link: the active counter is `v`, and A:B is `nxt / 2` (R302). -/
def linkedTo (s : State) (v : Counter) : State :=
  { setCtr s v with a := BitVec.ofNat 8 ((ctr s).toNat / 512), b := BitVec.ofNat 8 ((ctr s).toNat / 2) }

/-- 1 when CF is 1, and 0 otherwise, as a byte. -/
def carryByte (s : State) : Byte := if s.cf then 1 else 0

/-! ### Stores -/

/-- From `s` to `t` the byte at `p` has become `v` and every other byte of memory reads as before. -/
abbrev StoresOnly (s t : State) (p : Nat) (v : Byte) : Prop :=
  Memory.read t.mem p = v ∧ ∀ q, q ≠ p → Memory.read t.mem q = Memory.read s.mem q

/-- The instruction completes, storing `v` at the physical address `p` and nothing else in memory; every other part of the state
is that of `u`. The byte replaced is what the next fetch may still see (R80). -/
def CompletesStoring (i : Instr) (s : State) (p : Nat) (v : Byte) (u : State) : Prop :=
  ∃ t, exec i s = .next t ∧ StoresOnly s t p v ∧
    t = { u with mem := t.mem, stale := some (p, Memory.read s.mem p) }

/-- The states agree on everything but memory bytes that no user-mode access reaches: the data addresses from 512 up to, and not
including, PROT_LIMIT (R71). -/
def AgreeUnprotected (s t : State) : Prop :=
  t = { s with mem := t.mem } ∧
    ∀ p, (∀ d : DataAddr, 512 ≤ d.toNat → d.toNat < s.cfg.protLimit → p ≠ physData s d) →
      Memory.read t.mem p = Memory.read s.mem p

/-- Two outcomes that agree as `AgreeUnprotected` says, or are the same stop. -/
def SameOutcome (x y : Out) : Prop :=
  match x, y with
  | .next s, .next t => AgreeUnprotected s t
  | .fault e, .fault f => e = f
  | .refused e, .refused f => e = f
  | _, _ => False

/-! ### The spec's lists

Each lists, from the rule it cites, the instructions that write the part named. A hard macro end writes what its own
instruction writes, and is not in the lists. -/

/-- Whether the instruction is a hard macro end. -/
def isMacroEnd (i : Instr) : Bool :=
  match i with
  | .macroEnd _ _ _ => true
  | _ => false

/-- The arithmetic of R45's row "CF and ZF", and `DEC [m]`. -/
def isArith (i : Instr) : Bool :=
  match i with
  | .incDirect _ | .incPtr | .incPage _ | .inccDirect _ | .inccPtr | .inccPage _
  | .incxDirect _ | .incxPtr | .incxPage _ | .incxcDirect _ | .incxcPtr | .incxcPage _
  | .addDirectA _ | .addPtrC | .addPageA _ | .addcDirectA _ | .addcPtrC | .addcPageA _
  | .addADirect _ | .addAC | .addAPage _ | .addcADirect _ | .addcAC | .addcAPage _
  | .decDirect _ | .decPtr | .decPage _ | .deccDirect _ | .deccPtr | .deccPage _
  | .decxDirect _ | .decxPtr | .decxPage _ | .decxcDirect _ | .decxcPtr | .decxcPage _
  | .subDirectA _ | .subPtrC | .subPageA _ | .subcDirectA _ | .subcPtrC | .subcPageA _
  | .subADirect _ | .subAC | .subAPage _ | .subcADirect _ | .subcAC | .subcAPage _ => true
  | _ => false

/-- The logical operations of R45's row "ZF only". -/
def isLogic (i : Instr) : Bool :=
  match i with
  | .andDirectA _ | .andPtrC | .andPageA _ | .xorDirectA _ | .xorPtrC | .xorPageA _
  | .orDirectA _ | .orPtrC | .orPageA _
  | .andADirect _ | .andAC | .andAPage _ | .andAImm _ | .xorADirect _ | .xorAC | .xorAPage _ | .xorAImm _
  | .orADirect _ | .orAC | .orAPage _ | .orAImm _ => true
  | _ => false

/-- R45's row "CF only". -/
def writesCarryOnly (i : Instr) : Bool :=
  match i with
  | .shlDirect _ | .shlPtr | .shlPage _ | .shrDirect _ | .shrPtr | .shrPage _
  | .shlcDirect _ | .shlcPtr | .shlcPage _ | .shrcDirect _ | .shrcPtr | .shrcPage _
  | .loopshrc | .loopshlc | .clc => true
  | _ => false

/-- R45's row "all six". -/
def writesAllFlags (i : Instr) : Bool :=
  match i with
  | .setflagDirect _ | .setflagPtr | .setflagPage _ | .reti _ => true
  | _ => false

/-- `DEC [m]` with xx = 124 or 125 (R45, R270). -/
def decKeepsCarry (i : Instr) : Bool :=
  match i with
  | .decDirect m => decide (m.toNat = 124 ∨ m.toNat = 125)
  | _ => false

/-- The linking branches (R302). -/
def isLinking (i : Instr) : Bool :=
  match i with
  | .balDirect _ | .balC0 | .balC1 | .balZ0 | .balZ1 | .balPtr | .balPage _
  | .brRel _ | .brB | .brC0Rel _ | .brC0B | .brC1Rel _ | .brC1B | .brZ0Rel _ | .brZ0B | .brZ1Rel _ | .brZ1B => true
  | _ => false

/-- INCX, INCXC, DECX, DECXC and LDX: A from the operand, B from the old A (R263, R363). -/
def isExchange (i : Instr) : Bool :=
  match i with
  | .incxDirect _ | .incxPtr | .incxPage _ | .incxcDirect _ | .incxcPtr | .incxcPage _
  | .decxDirect _ | .decxPtr | .decxPage _ | .decxcDirect _ | .decxcPtr | .decxcPage _
  | .ldxAImm _ | .ldxADirect _ | .ldxAPtr | .ldxAPage _ => true
  | _ => false

/-- The five loop instructions (R22). -/
def isLoop (i : Instr) : Bool :=
  match i with
  | .loopdecZero | .loopdecRel _ | .loopshrc | .loopzero | .loopincRel _ | .loopshlc => true
  | _ => false

/-- The list of R22 for A. -/
def writesA (i : Instr) : Bool :=
  isLinking i || isExchange i ||
  match i with
  | .ldAFromB | .swap | .mulx | .mul | .getpc | .getmc | .getstat | .inputa | .inout | .ldAImm _
  | .addADirect _ | .addAC | .addAPage _ | .addcADirect _ | .addcAC | .addcAPage _
  | .subADirect _ | .subAC | .subAPage _ | .subcADirect _ | .subcAC | .subcAPage _
  | .ldADirect _ | .ldAPtr | .ldAPage _
  | .andADirect _ | .andAC | .andAPage _ | .andAImm _ | .xorADirect _ | .xorAC | .xorAPage _ | .xorAImm _
  | .orADirect _ | .orAC | .orAPage _ | .orAImm _ => true
  | _ => false

/-- The list of R22 for B, but for the fast-mode increment, which the cycle adds. -/
def writesBReg (i : Instr) : Bool :=
  isLinking i || isExchange i || isLoop i ||
  match i with
  | .ldBFromA | .swap | .ldBFromC | .getpc | .getmc | .ldBImm _ | .ldBDirect _ | .ldBPtr | .ldBPage _
  | .stacpDirect _ | .stacpPtr | .stacpPage _ | .stabpDirect _ | .stabpPage _ | .stzcpPtr => true
  | _ => false

/-- The list of R22 for C. -/
def writesC (i : Instr) : Bool :=
  isLoop i ||
  match i with
  | .mul | .getver | .getid | .cpuinfo | .ldCImm _ | .ldCDirect _ | .ldCPtr | .ldCPage _
  | .stacpDirect _ | .stacpPtr | .stacpPage _ | .stzcpPtr | .hmacro _ _ => true
  | _ => false

/-- The instructions that write data memory: the stores, GETFLAG, ZERO, the read-modify-write forms, the copies, IN, MULX, the
compound loops and hard macro entry (R142, R190, R220, R230, R332, R351, R370). -/
def storesMemory (i : Instr) : Bool :=
  match i with
  | .mulx | .getflagDirect _ | .getflagPtr | .getflagPage _ | .stDirectA _ | .stPageA _ | .stDirectB _
  | .stDirectC _ | .stPtrC | .stPageC _ | .zero _
  | .shlDirect _ | .shlPtr | .shlPage _ | .shrDirect _ | .shrPtr | .shrPage _
  | .shlcDirect _ | .shlcPtr | .shlcPage _ | .shrcDirect _ | .shrcPtr | .shrcPage _
  | .andDirectA _ | .andPtrC | .andPageA _ | .xorDirectA _ | .xorPtrC | .xorPageA _
  | .orDirectA _ | .orPtrC | .orPageA _
  | .stacpDirect _ | .stacpPtr | .stacpPage _ | .stabDirect _ | .stabPage _ | .stacPtr
  | .stabpDirect _ | .stabpPage _ | .stzcpPtr | .inDirect _ | .inPtr | .inPage _
  | .incDirect _ | .incPtr | .incPage _ | .inccDirect _ | .inccPtr | .inccPage _
  | .incxDirect _ | .incxPtr | .incxPage _ | .incxcDirect _ | .incxcPtr | .incxcPage _
  | .addDirectA _ | .addPtrC | .addPageA _ | .addcDirectA _ | .addcPtrC | .addcPageA _
  | .decDirect _ | .decPtr | .decPage _ | .deccDirect _ | .deccPtr | .deccPage _
  | .decxDirect _ | .decxPtr | .decxPage _ | .decxcDirect _ | .decxcPtr | .decxcPage _
  | .subDirectA _ | .subPtrC | .subPageA _ | .subcDirectA _ | .subcPtrC | .subcPageA _
  | .loopshrc | .loopzero | .loopshlc | .hmacro _ _ => true
  | _ => false

/-- Class C of R361, by instruction. -/
def isFastCancelled (i : Instr) : Bool :=
  isLoop i ||
  match i with
  | .stacpDirect _ | .stacpPtr | .stacpPage _ | .stabpDirect _ | .stabpPage _ | .stzcpPtr => true
  | _ => false

/-- Class F of R361, by instruction. -/
def isFastForbidden (i : Instr) : Bool :=
  isLinking i ||
  match i with
  | .ldBFromA | .swap | .ldBFromC | .getpc | .getmc
  | .incxDirect _ | .incxPtr | .incxPage _ | .incxcDirect _ | .incxcPtr | .incxcPage _
  | .decxDirect _ | .decxPtr | .decxPage _ | .decxcDirect _ | .decxcPtr | .decxcPage _ => true
  | _ => false

/-! ### Words -/

/-- What a word needs of the parameters and of MF and IF to be read as the instruction (R108): fast mode for LDX, MF and IF for the
two hard macro rows. -/
def DecodableIn (c : Config) (mf ifBit : Bool) (i : Instr) : Prop :=
  match i with
  | .ldxAImm _ | .ldxADirect _ | .ldxAPtr | .ldxAPage _ => c.opmsbMode = .fast
  | .hmacro _ _ => c.extOpcodes = false ∧ mf = false ∧ ifBit = false
  | .macroEnd _ _ _ => c.extOpcodes = false ∧ mf = true ∧ ifBit = false
  | _ => True

/-- The pairs with no row: the unused OP codes of R112 and the table of R113. -/
def UndefinedPair (op : BitVec 6) (xx : Byte) : Prop :=
  op = 0x0F ∨ op = 0x1C ∨
  (op = 0x01 ∧
    ((0x05 ≤ xx.toNat ∧ xx.toNat ≤ 0x1F) ∨ xx = 0x23 ∨ (0x25 ≤ xx.toNat ∧ xx.toNat ≤ 0x27) ∨
     (0x29 ≤ xx.toNat ∧ xx.toNat ≤ 0x2F) ∨ xx = 0x50 ∨ xx = 0x53 ∨ (0x55 ≤ xx.toNat ∧ xx.toNat ≤ 0x57) ∨
     (0x59 ≤ xx.toNat ∧ xx.toNat ≤ 0x5F) ∨ (0x70 ≤ xx.toNat ∧ xx.toNat ≤ 0xBF) ∨ xx = 0xC0 ∨ xx = 0xC3 ∨
     (0xC5 ≤ xx.toNat ∧ xx.toNat ≤ 0xC7) ∨ (0xC9 ≤ xx.toNat ∧ xx.toNat ≤ 0xCF) ∨ (0xE2 ≤ xx.toNat ∧ xx.toNat ≤ 0xEF) ∨
     xx = 0xF0 ∨ 0xF4 ≤ xx.toNat ∨ (0x32 ≤ xx.toNat ∧ xx.toNat ≤ 0x3F) ∨ (0x44 ≤ xx.toNat ∧ xx.toNat ≤ 0x4F) ∨
     xx = 0x60 ∨ (0x62 ≤ xx.toNat ∧ xx.toNat ≤ 0x6F))) ∨
  ((op = 0x06 ∨ op = 0x07) ∧ xx = 127) ∨
  ((op = 0x10 ∨ op = 0x11) ∧ xx = 126) ∨
  (0x12 ≤ op.toNat ∧ op.toNat ≤ 0x1B ∧ xx = 127) ∨
  (op = 0x1F ∧ 127 ≤ xx.toNat) ∨
  ((op = 0x38 ∨ op = 0x39) ∧ xx = 128)

/-- The pairs of class F of R361: `LD B,A`, SWAP, `LD B,C`, GETPC, GETMC, the four X forms, BAL, BR and the four conditional BR. -/
def FastForbiddenPair (op : BitVec 6) (xx : Byte) : Prop :=
  (op = 0x01 ∧ (xx = 0x02 ∨ xx = 0x03 ∨ xx = 0x20 ∨ xx = 0x21 ∨ xx = 0x22)) ∨
  op = 0x22 ∨ op = 0x23 ∨ op = 0x32 ∨ op = 0x33 ∨
  op = 0x11 ∨ op = 0x13 ∨ op = 0x15 ∨ op = 0x17 ∨ op = 0x19 ∨ op = 0x1B

/-- The words that are no instruction under these parameters, MF and IF. With the macro bit: under the opcode extension (R373), in an
interrupt (R374), or an entry word with opmsb = 1 (R362 (a)). Without it: a pair with no row, or opmsb = 1 outside fast mode (R360)
or on class F (R362). The word of a hard macro end is an instruction; what it selects is read when it executes (R371). -/
def WordWithNoMeaning (c : Config) (mf ifBit : Bool) (w : InstrWord) : Prop :=
  (macroOf w = true ∧ (c.extOpcodes = true ∨ ifBit = true ∨ (mf = false ∧ opmsbOf w = true))) ∨
  (macroOf w = false ∧
    (UndefinedPair (opOf w) (xxOf w) ∨
      (opmsbOf w = true ∧ (c.opmsbMode ≠ .fast ∨ FastForbiddenPair (opOf w) (xxOf w)))))

end Sys2Proof.Machine
end

