-- ==== Sys2Proof/Certificates/Slice0/Obligations.lean ====
section
/-!
DEFINITION. The statements for the provers. The docstring of each says which rule of spec/ it formalises. `exec` runs on the state the cycle
gives it, the active counter already at `nxt` (R28), so `ctr s` in a statement about `exec` is `nxt`. A statement
for every operand of a constructor also speaks of the values that no encoding has: what exec does there is the model's choice (log
entry 27).
-/

open Sys2Proof Sys2Proof.Machine

/-- Decoding the encoding of any well-formed instruction gives that instruction back (R101, R108, R109, R110, R118).
-/
def Obligations.DecodeOfEncode : Prop :=
  ∀ (c : Config) (mf ifBit : Bool) (i : Instr), i.wf = true → DecodableIn c mf ifBit i →
    decode c mf ifBit (encode i) = .ok ⟨i, .own⟩

/-- Every word that decodes is the encoding of what it decodes to, with opmsb set where the fast mode acts on B (R101,
R108, R109, R110, R118, R361). -/
def Obligations.DecodedWordEncodesBack : Prop :=
  ∀ (c : Config) (mf ifBit : Bool) (w : InstrWord) (d : Decoded), decode c mf ifBit w = .ok d →
    d.instr.wf = true ∧ DecodableIn c mf ifBit d.instr ∧
      w = (if d.bmod = .own then encode d.instr else withOpmsb (encode d.instr))

/-- opmsb = 1 in fast mode: LDX for OP 03 and 2B, class F refused, class C keeps B, every other instruction increments
B (R361, R362, R363, R364). -/
def Obligations.FastModeClasses : Prop :=
  ∀ (c : Config) (op : BitVec 6) (xx : Byte), c.opmsbMode = .fast →
    (op = 0x03 → decodeUnmacroed c true op xx = .ok ⟨.ldxAImm xx, .own⟩) ∧
    (op = 0x2B → decodeUnmacroed c true op xx = .ok ⟨byForm xx .ldxADirect .ldxAPtr .ldxAPage, .own⟩) ∧
    (op ≠ 0x03 → op ≠ 0x2B →
      (∀ i, decodeOrdinary op xx = .ok i →
        decodeUnmacroed c true op xx =
          (if isFastForbidden i then .error (.opmsbOnBWriter op xx)
           else .ok ⟨i, if isFastCancelled i then .keep else .inc⟩)) ∧
      (∀ e, decodeOrdinary op xx = .error e → decodeUnmacroed c true op xx = .error e))

/-- A word is refused exactly when its (OP, xx) pair has no row, or its opmsb or macro bit has no meaning there (R112,
R113, R168, R325, R338, R360, R361, R362, R373, R374, R420). -/
def Obligations.WordsWithNoMeaningAreRefused : Prop :=
  (∀ (op : BitVec 6) (xx : Byte), (∃ e, decodeOrdinary op xx = .error e) ↔ UndefinedPair op xx) ∧
  ∀ (c : Config) (mf ifBit : Bool) (w : InstrWord),
    ((∃ e, decode c mf ifBit w = .error e) ↔ WordWithNoMeaning c mf ifBit w) ∧
    (macroOf w = false → opmsbOf w = true → c.opmsbMode = .fast → FastForbiddenPair (opOf w) (xxOf w) →
      ¬UndefinedPair (opOf w) (xxOf w) → decode c mf ifBit w = .error (.opmsbOnBWriter (opOf w) (xxOf w))) ∧
    (macroOf w = false → opmsbOf w = true → c.opmsbMode ≠ .fast → decode c mf ifBit w = .error .opmsbRole) ∧
    (macroOf w = true → c.extOpcodes = true → decode c mf ifBit w = .error .extendedOpcode) ∧
    (macroOf w = true → c.extOpcodes = false → ifBit = true → decode c mf ifBit w = .error .macroInInterrupt) ∧
    (macroOf w = true → c.extOpcodes = false → ifBit = false → mf = false → opmsbOf w = true →
      decode c mf ifBit w = .error .opmsbOnMacroEntry)

/-- Words written out in the spec decode to the instructions the spec gives them (R143, R210, R205, R208, R330, R305,
R363, R370, R371, R420, R361, R315). Model choice in it: log entry 2. -/
def Obligations.SpecWordsDecodeAsTheSpecSays : Prop :=
  decode Config.sdog false false 0x0101 = .ok ⟨.ldAFromB, .own⟩ ∧
  decode Config.sdog false false 0x2A7F = .ok ⟨.ldAPtr, .own⟩ ∧
  decode Config.sdog false false 0x0603 = .ok ⟨.stDirectA 3, .own⟩ ∧
  decode Config.sdog false false 0x0785 = .ok ⟨.zero 5, .own⟩ ∧
  decode Config.sdog false false 0x38FC = .ok ⟨.loopdecRel (-4), .own⟩ ∧
  decode Config.sdog false false 0x1079 = .ok ⟨.jmpDirect 121, .own⟩ ∧
  decode Config.sdog false false 0x12FD = .ok ⟨.jrRel (-3), .own⟩ ∧
  decode Config.sdog false true 0x1F7E = .ok ⟨.reti 0x7E, .own⟩ ∧
  decode Config.sdog false false 0x8312 = .ok ⟨.ldxAImm 0x12, .own⟩ ∧
  decode Config.sdog false false 0xAA7F = .ok ⟨.ldAPtr, .inc⟩ ∧
  decode Config.sdog false false 0x4507 = .ok ⟨.hmacro 5 7, .own⟩ ∧
  decode Config.sdog true false 0x6A05 = .ok ⟨.macroEnd false 0x2A 5, .own⟩

/-- A step executes the instruction decoded from the two bytes at the active counter, with the cycle around it (R28,
R63, R74, R108, R361). Model choice in it: log entries 8 and 13. -/
def Obligations.StepRunsTheDecodedInstruction : Prop :=
  (∀ (s : State) (d : Decoded), FetchSettled s → decode s.cfg s.mf s.ifBit (wordAtCounter s) = .ok d →
    step s = onNext (exec d.instr (beginInstr s)) fun t =>
      .next (endStep { t with b := match d.bmod with
        | .own => t.b
        | .keep => s.b
        | .inc => s.b + 1 })) ∧
  (∀ (s : State) (e : DecodeError), FetchSettled s → decode s.cfg s.mf s.ifBit (wordAtCounter s) = .error e →
    step s = .refused (.encoding e)) ∧
  (∀ s : State, interruptAccepted s = false → s.cfg.memBytes ≤ (ctr s).toNat →
    step s = .refused (.absentMemory (ctr s).toNat)) ∧
  (∀ s : State, interruptAccepted s = false → (ctr s).toNat < s.cfg.memBytes → s.cfg.memBytes ≤ (ctrSecond s).toNat →
    step s = .refused (.absentMemory (ctrSecond s).toNat))

/-- A byte that the instruction before stored is fetched old or new; every other byte is fetched as memory holds it
(R80, R461, R65). Model choice in it: log entry 12. -/
def Obligations.FetchMaySeeTheOldByte : Prop :=
  ∀ (s : State) (p : Nat), p < s.cfg.memBytes →
    (∀ old, s.stale = some (p, old) →
      ∃ v, fetchByte s p = .next (v, { s with draws := s.draws + 1 }) ∧ (v = old ∨ v = Memory.read s.mem p)) ∧
    (staleByte s p = none → fetchByte s p = .next (Memory.read s.mem p, s))

/-- With IF = 0, EF = 1 and a request, the step is an interrupt entry to the vector of the request with priority;
otherwise none (R402, R404, R405, R406, R411). Model choice in it: log entries 8 and 13. -/
def Obligations.StepTakesTheInterrupt : Prop :=
  (∀ s : State, s.ifBit = false → s.ef = true →
    (s.lines.int0 = true ∨ s.lines.int1 = true ∨ (s.cfg.userMode = true ∧ s.ae = true)) →
    step s = .next { s with
      ifBit := true
      ic := BitVec.ofNat 17
        ((if s.lines.int0 then 32 else if s.lines.int1 then 62 else s.cfg.aeVector) % 2 ^ s.cfg.pcw)
      cycles := s.cycles + 4
      jra := jraAfter s
      paccNow := false
      lines := s.lineScript.headD s.lines
      lineScript := s.lineScript.tail }) ∧
  (∀ s : State, (s.ifBit = true ∨ s.ef = false ∨
      (s.lines.int0 = false ∧ s.lines.int1 = false ∧ (s.cfg.userMode = false ∨ s.ae = false))) →
    interruptAccepted s = false)

/-- Which counter is active, what a write of it leaves alone, and what the cycle does before an instruction (R27, R28,
R29, R41). Model choice in it: log entry 12. -/
def Obligations.ActiveCounterAdvances : Prop :=
  ∀ s : State,
    (s.ifBit = true → ctr s = s.ic ∧ ∀ v, setCtr s v = { s with ic := v }) ∧
    (s.ifBit = false → s.mf = true → ctr s = s.mc ∧ ∀ v, setCtr s v = { s with mc := v }) ∧
    (s.ifBit = false → s.mf = false → ctr s = s.pc ∧ ∀ v, setCtr s v = { s with pc := v }) ∧
    beginInstr s =
      { setCtr s (BitVec.ofNat 17 (((ctr s).toNat + 2) % 2 ^ s.cfg.pcw)) with
        paccNow := s.pacc
        pacc := false
        stale := none }

/-- The data address of each operand form, its place in physical memory, and when an access violates or a write is
suppressed (R62, R67, R68, R69, R70, R71, R73). Model choice in it: log entry 31. -/
def Obligations.DataAddresses : Prop :=
  ∀ (s : State) (m : BitVec 7) (d : DataAddr),
    (s.ifBit = true → (ea s (.direct m)).toNat = m.toNat) ∧
    (s.ifBit = false → (ea s (.direct m)).toNat = s.ofBits.toNat * 128 + m.toNat) ∧
    (ea s .ptr).toNat = s.a.toNat * 256 + s.b.toNat ∧
    (ea s (.page m)).toNat = m.toNat * 256 + s.b.toNat ∧
    (addrAC s).toNat = s.a.toNat * 256 + s.c.toNat ∧
    (addrC s).toNat = s.c.toNat ∧
    (s.cfg.memoryModel = .tiny ∨ s.paccNow = true → physData s d = d.toNat) ∧
    (s.cfg.memoryModel = .split → s.paccNow = false → physData s d = s.cfg.dataBase + d.toNat) ∧
    operandViolates s (.direct m) = false ∧
    (operandViolates s .ptr = true ↔
      s.cfg.userMode = true ∧ s.uf = true ∧ (ea s .ptr).toNat < s.cfg.protLimit) ∧
    (operandViolates s (.page m) = true ↔
      s.cfg.userMode = true ∧ s.uf = true ∧ (ea s (.page m)).toNat < s.cfg.protLimit) ∧
    (violates s (addrAC s) = true ↔
      s.cfg.userMode = true ∧ s.uf = true ∧ (addrAC s).toNat < s.cfg.protLimit) ∧
    (writeSuppressed s = true ↔ s.paccNow = true ∧ s.cfg.userMode = true ∧ s.uf = true)

/-- After reset: PC = RESET_PC, MF, UF, OF, AE, TM, EF, IF and PACC 0, and the invariant of every step holds (R44,
R450). Model choice in it: log entries 2, 3, 4, 5, 6 and 7. -/
def Obligations.ResetStateMeetsTheInvariant : Prop :=
  (∀ c : Config, ConfigOk c →
    (State.resetWith c).cfg = c ∧ (State.resetWith c).pc = c.resetPc ∧ (State.resetWith c).mf = false ∧
      (State.resetWith c).uf = false ∧ (State.resetWith c).ofBits = 0 ∧ (State.resetWith c).ae = false ∧
      (State.resetWith c).tm = false ∧ (State.resetWith c).ef = false ∧ (State.resetWith c).ifBit = false ∧
      (State.resetWith c).pacc = false ∧ Inv (State.resetWith c)) ∧
  ConfigOk Config.sdog ∧ State.reset = State.resetWith Config.sdog

/-- Every step keeps: legal parameters, counters even and below 2^PCW, canonical installed memory, UF and AE 0 without
user mode (R23, R28, R29, R33, R37, R38, R62, R63). Model choice in it: log entries 1 and 7. -/
def Obligations.EveryStepKeepsTheInvariant : Prop :=
  ∀ s t : State, Inv s → step s = .next t → Inv t

/-- Every step takes 4 cycles, keeps the parameters and TM, keeps JRA within JRAW bits, and only appends port events
(R7, R24, R38, R43, R350, R412, R470). Model choice in it: log entries 1 and 21. -/
def Obligations.EveryStepTakesFourCyclesAndKeepsTheParameters : Prop :=
  ∀ s t : State, step s = .next t →
    t.cycles = s.cycles + 4 ∧ t.cfg = s.cfg ∧ t.tm = s.tm ∧ t.jra.toNat < 2 ^ s.cfg.jraw ∧
      ∃ events, t.io = s.io ++ events

/-- Each flag changes only under the instructions that the flag table lists for it (R30, R31, R32, R33, R34, R45). -/
def Obligations.FlagsAreWrittenByTheInstructionsOfTheTable : Prop :=
  ∀ (i : Instr) (s t : State), isMacroEnd i = false → exec i s = .next t →
    (t.zf ≠ s.zf → isArith i = true ∨ isLogic i = true ∨ writesAllFlags i = true) ∧
    (t.cf ≠ s.cf → (isArith i = true ∧ decKeepsCarry i = false) ∨ writesCarryOnly i = true ∨ writesAllFlags i = true) ∧
    (t.mf ≠ s.mf → ∃ p xx, i = .hmacro p xx) ∧
    (t.uf ≠ s.uf → (∃ k, i = .usermode k) ∨ writesAllFlags i = true) ∧
    (t.ofBits ≠ s.ofBits → (∃ k, i = .offset k) ∨ writesAllFlags i = true)

/-- A, B and C change only under the instructions that R22 lists for each (R22). -/
def Obligations.RegistersAreWrittenByTheInstructionsOfTheList : Prop :=
  ∀ (i : Instr) (s t : State), isMacroEnd i = false → exec i s = .next t →
    (t.a ≠ s.a → writesA i = true) ∧ (t.b ≠ s.b → writesBReg i = true) ∧ (t.c ≠ s.c → writesC i = true)

/-- EF, AE, TM, IF and PACC change only as their rules say (R37, R38, R39, R40, R41, R412). Model choice in it: log
entry 21. -/
def Obligations.ModeBitsAreWrittenByTheirInstructions : Prop :=
  ∀ (i : Instr) (s t : State), isMacroEnd i = false → exec i s = .next t →
    (t.ef ≠ s.ef → i = .enable ∨ i = .disable) ∧
    (t.ae ≠ s.ae → (t.ae = true ∧ s.cfg.userMode = true ∧ s.uf = true) ∨ (t.ae = false ∧ ∃ k, i = .clear k)) ∧
    t.tm = s.tm ∧
    (t.ifBit ≠ s.ifBit → (t.ifBit = true ∧ ∃ k, i = .int k) ∨ (t.ifBit = false ∧ ∃ m, i = .reti m)) ∧
    (t.pacc ≠ s.pacc → t.pacc = true ∧ i = .pmemacc)

/-- A counter that is not active keeps its value, but for SETPC, SETMC, a hard macro entry and INT (R27, R150, R151,
R162, R370). -/
def Obligations.InactiveCountersKeepTheirValues : Prop :=
  ∀ (i : Instr) (s t : State), isMacroEnd i = false → exec i s = .next t →
    (t.pc ≠ s.pc → (s.ifBit = false ∧ s.mf = false) ∨ i = .setpc) ∧
    (t.mc ≠ s.mc → (s.ifBit = false ∧ s.mf = true) ∨ i = .setmc ∨ ∃ p xx, i = .hmacro p xx) ∧
    (t.ic ≠ s.ic → s.ifBit = true ∨ ∃ k, i = .int k)

/-- An instruction that is no store, read-modify-write, copy, IN, MULX, compound loop or hard macro word leaves every
byte of memory (R142, R190, R220, R230, R332, R336, R337, R351, R370). -/
def Obligations.OtherInstructionsLeaveMemoryAlone : Prop :=
  ∀ (i : Instr) (s t : State), storesMemory i = false → isMacroEnd i = false → exec i s = .next t →
    ∀ p, Memory.read t.mem p = Memory.read s.mem p

/-- In user mode no instruction depends on or changes the protected bytes from 512 up to PROT_LIMIT (R69, R70, R71,
R72). Model choice in it: log entry 10. -/
def Obligations.UserModeCannotObserveProtectedMemory : Prop :=
  (∀ (i : Instr) (s t : State), s.cfg.userMode = true → s.uf = true → AgreeUnprotected s t →
    SameOutcome (exec i s) (exec i t)) ∧
  (∀ (i : Instr) (s t : State), s.cfg.userMode = true → s.uf = true → exec i s = .next t →
    ∀ d : DataAddr, 512 ≤ d.toNat → d.toNat < s.cfg.protLimit →
      Memory.read t.mem (physData s d) = Memory.read s.mem (physData s d))

/-- LD A,B, LD B,A and LD B,C: word, effect, and nothing else changed (R143, R144, R147). -/
def Obligations.RegisterMovesByTheirRules : Prop :=
  encode .ldAFromB = 0x0101 ∧ (∀ c mf ifBit, decode c mf ifBit 0x0101 = .ok ⟨.ldAFromB, .own⟩) ∧
    (∀ s : State, exec .ldAFromB s = .next { s with a := s.b }) ∧
  encode .ldBFromA = 0x0102 ∧ (∀ c mf ifBit, decode c mf ifBit 0x0102 = .ok ⟨.ldBFromA, .own⟩) ∧
    (∀ s : State, exec .ldBFromA s = .next { s with b := s.a }) ∧
  encode .ldBFromC = 0x0120 ∧ (∀ c mf ifBit, decode c mf ifBit 0x0120 = .ok ⟨.ldBFromC, .own⟩) ∧
    (∀ s : State, exec .ldBFromC s = .next { s with b := s.c })

/-- LD A,n, LD C,n (and LD B,n): every operand byte is the immediate (R191, R193). -/
def Obligations.ImmediateLoadsByTheirRules : Prop :=
  ∀ n : Byte,
    encode (.ldAImm n) = 0x0200 ||| n.setWidth 16 ∧
    (∀ c mf ifBit, decode c mf ifBit (0x0200 ||| n.setWidth 16) = .ok ⟨.ldAImm n, .own⟩) ∧
    (∀ s : State, exec (.ldAImm n) s = .next { s with a := n }) ∧
    encode (.ldCImm n) = 0x0400 ||| n.setWidth 16 ∧
    (∀ c mf ifBit, decode c mf ifBit (0x0400 ||| n.setWidth 16) = .ok ⟨.ldCImm n, .own⟩) ∧
    (∀ s : State, exec (.ldCImm n) s = .next { s with c := n }) ∧
    encode (.ldBImm n) = 0x0300 ||| n.setWidth 16 ∧
    (∀ c mf ifBit, decode c mf ifBit (0x0300 ||| n.setWidth 16) = .ok ⟨.ldBImm n, .own⟩) ∧
    (∀ s : State, exec (.ldBImm n) s = .next { s with b := n })

/-- DISABLE is 0x01E0 and clears EF; ENABLE is 0x01E1 and sets it; after DISABLE no external interrupt is accepted
(R163, R164). -/
def Obligations.EnableAndDisableByTheirRules : Prop :=
  encode .disable = 0x01E0 ∧ encode .enable = 0x01E1 ∧
  (∀ c mf ifBit, decode c mf ifBit 0x01E0 = .ok ⟨.disable, .own⟩ ∧ decode c mf ifBit 0x01E1 = .ok ⟨.enable, .own⟩) ∧
  ∀ s : State,
    exec .disable s = .next { s with ef := false } ∧
    exec .enable s = .next { s with ef := true } ∧
    interruptAccepted { s with ef := false } = false

/-- INT k is 0x01D0 + k: IF becomes 1 and IC 32 + 2k, whatever EF holds; in an interrupt it is refused (R162). -/
def Obligations.IntEntersTheInterruptByItsRule : Prop :=
  (∀ k : BitVec 4, encode (.int k) = 0x01D0 ||| k.setWidth 16 ∧
    ∀ c mf ifBit, decode c mf ifBit (0x01D0 ||| k.setWidth 16) = .ok ⟨.int k, .own⟩) ∧
  (∀ (k : BitVec 4) (s : State), s.ifBit = false →
    exec (.int k) s = .next { s with
      ifBit := true
      ic := BitVec.ofNat 17 ((32 + 2 * k.toNat) % 2 ^ s.cfg.pcw) }) ∧
  (∀ (k : BitVec 4) (s : State), s.ifBit = true → exec (.int k) s = .refused .intInInterrupt) ∧
  (∀ s t : State, 9 ≤ s.cfg.pcw → exec (.int 3) s = .next t → ctr t = 38)

/-- (LOAD) and (SAVE) are the words 0x01C1 and 0x01C2, and have no described semantics (R159). -/
def Obligations.LoadAndSaveAreRefused : Prop :=
  encode .load = 0x01C1 ∧ encode .save = 0x01C2 ∧
  (∀ c mf ifBit, decode c mf ifBit 0x01C1 = .ok ⟨.load, .own⟩ ∧ decode c mf ifBit 0x01C2 = .ok ⟨.save, .own⟩) ∧
  ∀ s : State, exec .load s = .refused .loadSaveUndescribed ∧ exec .save s = .refused .loadSaveUndescribed

/-- NOP changes nothing for every operand byte; SWAP exchanges A and B (R111, R141, R145). -/
def Obligations.NopAndSwapComplete : Prop :=
  ∀ s : State, (∀ xx, exec (.nop xx) s = .next s) ∧ exec .swap s = .next { s with a := s.b, b := s.a }

/-- GETPC and GETMC put half the counter into A:B; SETPC and SETMC put twice A:B into the counter (R148, R149, R150,
R151). -/
def Obligations.CounterTransfersComplete : Prop :=
  ∀ s : State,
    exec .getpc s = .next { s with a := BitVec.ofNat 8 (s.pc.toNat / 512), b := BitVec.ofNat 8 (s.pc.toNat / 2) } ∧
    exec .getmc s = .next { s with a := BitVec.ofNat 8 (s.mc.toNat / 512), b := BitVec.ofNat 8 (s.mc.toNat / 2) } ∧
    exec .setpc s = .next { s with pc := indexAddr s (s.a.toNat * 256 + s.b.toNat) } ∧
    exec .setmc s = .next { s with mc := indexAddr s (s.a.toNat * 256 + s.b.toNat) }

/-- USERMODE, OFFSET, GETSTAT, CLEAR 1, CLC and PMEMACC have their effect and no other; reserved operands are refused
(R152, R153, R154, R158, R160, R161). -/
def Obligations.ModeAndStatusInstructionsComplete : Prop :=
  ∀ s : State,
    (∀ k : BitVec 4, k.toNat ≤ 1 →
      exec (.usermode k) s = .next { s with uf := if s.cfg.userMode then decide (k = 1) else s.uf }) ∧
    (∀ k : BitVec 4, 1 < k.toNat → exec (.usermode k) s = .refused .usermodeRange) ∧
    (∀ k : BitVec 4, k.toNat ≤ 3 → exec (.offset k) s = .next { s with ofBits := BitVec.ofNat 2 k.toNat }) ∧
    (∀ k : BitVec 4, 3 < k.toNat → exec (.offset k) s = .refused .offsetRange) ∧
    exec .getstat s = .next { s with
      a := BitVec.ofNat 8 ((if s.ef then 128 else 0) + (if s.cfg.hasTimer && s.tm then 2 else 0) +
        (if s.cfg.userMode && s.ae then 1 else 0)) } ∧
    exec (.clear 1) s = .next { s with ae := false } ∧
    (∀ k : BitVec 4, k ≠ 1 → exec (.clear k) s = .refused .clearCause) ∧
    exec .clc s = .next { s with cf := false } ∧
    (s.cfg.hasPmemacc = true → exec .pmemacc s = .next { s with pacc := true }) ∧
    (s.cfg.hasPmemacc = false → exec .pmemacc s = .refused .optionAbsent)

/-- GETVER, GETID and CPUINFO put the value of the platform into C, or an unspecified one that does not change (R155,
R156, R157). Model choice in it: log entry 11. -/
def Obligations.IdentificationInstructionsComplete : Prop :=
  (∀ s : State,
    (∀ v, s.cfg.versionValue = some v → exec .getver s = .next { s with c := v }) ∧
    (∀ v, s.cfg.idValue = some v → exec .getid s = .next { s with c := v }) ∧
    (∀ v, s.cfg.cpuinfoValue = some v → exec .cpuinfo s = .next { s with c := v })) ∧
  (∃ v : Byte, ∀ s : State, s.cfg.versionValue = none → exec .getver s = .next { s with c := v }) ∧
  (∃ v : Byte, ∀ s : State, s.cfg.idValue = none → exec .getid s = .next { s with c := v }) ∧
  (∃ v : Byte, ∀ s : State, s.cfg.cpuinfoValue = none → exec .cpuinfo s = .next { s with c := v })

/-- MUL: C:A is the product of A and C; MULX: [0]:A is that product plus [0]; both unsigned (R142, R146, R67, R70,
R73). Model choice in it: log entry 31. -/
def Obligations.MultiplicationsComplete : Prop :=
  ∀ s : State,
    (s.cfg.hasMul = true → exec .mul s = .next { s with
      c := BitVec.ofNat 8 (s.a.toNat * s.c.toNat / 256)
      a := BitVec.ofNat 8 (s.a.toNat * s.c.toNat) }) ∧
    (s.cfg.hasMul = false → exec .mul s = .refused .optionAbsent) ∧
    s.a.toNat * s.c.toNat + (dataByte s (windowAddr s 0)).toNat < 65536 ∧
    (s.cfg.hasMulx = true → Installed s (windowAddr s 0) → writeSuppressed s = false →
      CompletesStoring .mulx s (physData s (windowAddr s 0))
        (BitVec.ofNat 8 ((s.a.toNat * s.c.toNat + (dataByte s (windowAddr s 0)).toNat) / 256))
        { s with a := BitVec.ofNat 8 (s.a.toNat * s.c.toNat + (dataByte s (windowAddr s 0)).toNat) }) ∧
    (s.cfg.hasMulx = true → Installed s (windowAddr s 0) → writeSuppressed s = true →
      exec .mulx s = .next { s with a := BitVec.ofNat 8 (s.a.toNat * s.c.toNat + (dataByte s (windowAddr s 0)).toNat) }) ∧
    (s.cfg.hasMulx = false → exec .mulx s = .refused .optionAbsent)

/-- AND, XOR, OR to A from memory, from C (xx = 127) and from an immediate: A and ZF from the result, nothing else
(R245, R246, R247, R248, R249, R250). -/
def Obligations.LogicToAComplete : Prop :=
  ∀ s : State,
    (∀ o, SourceReadable s o →
      exec (atForm o .andADirect .andAC .andAPage) s = .next { s with
        a := s.a &&& sourceByte s o
        zf := decide (s.a &&& sourceByte s o = 0) } ∧
      exec (atForm o .xorADirect .xorAC .xorAPage) s = .next { s with
        a := s.a ^^^ sourceByte s o
        zf := decide (s.a ^^^ sourceByte s o = 0) } ∧
      exec (atForm o .orADirect .orAC .orAPage) s = .next { s with
        a := s.a ||| sourceByte s o
        zf := decide (s.a ||| sourceByte s o = 0) }) ∧
    (∀ n : Byte,
      exec (.andAImm n) s = .next { s with a := s.a &&& n, zf := decide (s.a &&& n = 0) } ∧
      exec (.xorAImm n) s = .next { s with a := s.a ^^^ n, zf := decide (s.a ^^^ n = 0) } ∧
      exec (.orAImm n) s = .next { s with a := s.a ||| n, zf := decide (s.a ||| n = 0) })

/-- INPUTA, OUTPUTB, INOUT, IN, OUT: the port events on port C in program order, the byte read to A or to memory
(R165, R166, R167, R350, R351, R352). Model choice in it: log entries 9 and 10. -/
def Obligations.PortInstructionsComplete : Prop :=
  (∀ (s : State) (v : Byte) (rest : List Byte), s.portIn = v :: rest →
      exec .inputa s = .next { s with a := v, portIn := rest, io := s.io ++ [.input s.c v] } ∧
      exec .inout s = .next { s with
        a := v, portIn := rest, io := s.io ++ [.output s.c s.b] ++ [.input s.c v] } ∧
      ∀ o, Writable s o →
        CompletesStoring (atForm o .inDirect .inPtr .inPage) s (operandAddr s o) v
          { s with portIn := rest, io := s.io ++ [.input s.c v] }) ∧
  (∀ s : State, s.portIn = [] →
      exec .inputa s = .next { s with a := (Config.freeByte s.draws), portIn := [], io := s.io ++ [.input s.c (Config.freeByte s.draws)], draws := s.draws + 1 } ∧
      exec .inout s = .next { s with
        a := (Config.freeByte s.draws), portIn := [], io := s.io ++ [.output s.c s.b] ++ [.input s.c (Config.freeByte s.draws)], draws := s.draws + 1 } ∧
      ∀ o, Writable s o →
        CompletesStoring (atForm o .inDirect .inPtr .inPage) s (operandAddr s o) (Config.freeByte s.draws)
          { s with portIn := [], io := s.io ++ [.input s.c (Config.freeByte s.draws)], draws := s.draws + 1 }) ∧
  (∀ s : State, exec .outputb s = .next { s with io := s.io ++ [.output s.c s.b] } ∧
    ∀ o, Readable s o →
      exec (atForm o .outDirect .outPtr .outPage) s = .next { s with io := s.io ++ [.output s.c (operandByte s o)] })

/-- RETI [m] restores CF, OF, UF and ZF from the byte at m and clears IF; outside an interrupt or with another MF it
is refused (R420, R203, R69). -/
def Obligations.RetiReturnsFromTheInterrupt : Prop :=
  ∀ (s : State) (m : BitVec 7),
    (s.ifBit = false → exec (.reti m) s = .refused .retiOutsideInterrupt) ∧
    (s.ifBit = true → Installed s (ea s (.direct m)) →
      ((operandByte s (.direct m)).getLsbD 1 = s.mf →
        exec (.reti m) s = .next { s with
          cf := (operandByte s (.direct m)).getLsbD 7
          ofBits := BitVec.ofNat 2 ((operandByte s (.direct m)).toNat / 8)
          uf := if s.cfg.userMode then (operandByte s (.direct m)).getLsbD 2 else s.uf
          zf := (operandByte s (.direct m)).getLsbD 0
          ifBit := false }) ∧
      ((operandByte s (.direct m)).getLsbD 1 ≠ s.mf → exec (.reti m) s = .refused .flagByteChangesMf))

/-- SETFLAG writes CF, OF, UF, ZF from the operand byte; GETFLAG stores CF,0,0,OF1,OF0,UF,MF,ZF there (R203, R204,
R26, R33). -/
def Obligations.FlagRegisterTransfersComplete : Prop :=
  ∀ (s : State) (o : Operand),
    (Readable s o → (operandByte s o).getLsbD 1 = s.mf →
      exec (atForm o .setflagDirect .setflagPtr .setflagPage) s = .next { s with
        cf := (operandByte s o).getLsbD 7
        ofBits := BitVec.ofNat 2 ((operandByte s o).toNat / 8)
        uf := if s.cfg.userMode then (operandByte s o).getLsbD 2 else s.uf
        zf := (operandByte s o).getLsbD 0 }) ∧
    (Readable s o → (operandByte s o).getLsbD 1 ≠ s.mf →
      exec (atForm o .setflagDirect .setflagPtr .setflagPage) s = .refused .flagByteChangesMf) ∧
    (Writable s o →
      CompletesStoring (atForm o .getflagDirect .getflagPtr .getflagPage) s (operandAddr s o)
        (BitVec.ofNat 8 ((if s.cf then 128 else 0) + 8 * s.ofBits.toNat +
          (if s.cfg.userMode && s.uf then 4 else 0) + (if s.mf then 2 else 0) + (if s.zf then 1 else 0))) s)

/-- ST and ZERO store A, B, C or 0 at the operand and change nothing else (R205, R206, R207, R208). -/
def Obligations.StoresComplete : Prop :=
  ∀ s : State,
    (∀ m, Writable s (.direct m) → CompletesStoring (.stDirectA m) s (operandAddr s (.direct m)) s.a s) ∧
    (∀ m, Writable s (.page m) → CompletesStoring (.stPageA m) s (operandAddr s (.page m)) s.a s) ∧
    (∀ m, Writable s (.direct m) → CompletesStoring (.stDirectB m) s (operandAddr s (.direct m)) s.b s) ∧
    (∀ o, Writable s o → CompletesStoring (atForm o .stDirectC .stPtrC .stPageC) s (operandAddr s o) s.c s) ∧
    (∀ m, Writable s (.direct m) → CompletesStoring (.zero m) s (operandAddr s (.direct m)) 0 s)

/-- LD A, LD B, LD C from memory and LDX A: the register receives the operand byte, LDX also moves the old A to B
(R210, R211, R212, R363, R364). -/
def Obligations.LoadsComplete : Prop :=
  ∀ s : State,
    (∀ o, Readable s o →
      exec (atForm o .ldADirect .ldAPtr .ldAPage) s = .next { s with a := operandByte s o } ∧
      exec (atForm o .ldBDirect .ldBPtr .ldBPage) s = .next { s with b := operandByte s o } ∧
      exec (atForm o .ldCDirect .ldCPtr .ldCPage) s = .next { s with c := operandByte s o } ∧
      exec (atForm o .ldxADirect .ldxAPtr .ldxAPage) s = .next { s with a := operandByte s o, b := s.a }) ∧
    (∀ n : Byte, exec (.ldxAImm n) s = .next { s with a := n, b := s.a })

/-- STACP, STAB, STAC, STABP, STZCP copy the source byte to their destination and step B and C as their rules say
(R220, R221, R222, R225, R226, R70). -/
def Obligations.CopiesComplete : Prop :=
  ∀ s : State,
    (StoreReaches s (addrAC s) →
      (∀ o, Readable s o →
        CompletesStoring (atForm o .stacpDirect .stacpPtr .stacpPage) s (physData s (addrAC s)) (operandByte s o)
          { s with b := s.b + 1, c := s.c + 1 }) ∧
      (Readable s .ptr →
        CompletesStoring .stacPtr s (physData s (addrAC s)) (operandByte s .ptr) s)) ∧
    (StoreReaches s (pair s.a s.b) →
      (∀ m, Readable s (.direct m) →
        CompletesStoring (.stabDirect m) s (physData s (pair s.a s.b)) (operandByte s (.direct m)) s ∧
        CompletesStoring (.stabpDirect m) s (physData s (pair s.a s.b)) (operandByte s (.direct m)) { s with b := s.b + 1 }) ∧
      (∀ m, Readable s (.page m) →
        CompletesStoring (.stabPage m) s (physData s (pair s.a s.b)) (operandByte s (.page m)) s ∧
        CompletesStoring (.stabpPage m) s (physData s (pair s.a s.b)) (operandByte s (.page m)) { s with b := s.b + 1 })) ∧
    (Readable s .ptr → Installed s (addrC s) → writeSuppressed s = false →
      CompletesStoring .stzcpPtr s (physData s (addrC s)) (operandByte s .ptr) { s with b := s.b + 1, c := s.c + 1 })

/-- SHL, SHR, SHLC, SHRC: the byte shifted by one, 0 or CF shifted in, the bit shifted out to CF, ZF kept (R230, R231,
R232, R233, R234). -/
def Obligations.ShiftsComplete : Prop :=
  ∀ (s : State) (o : Operand), Writable s o →
    CompletesStoring (atForm o .shlDirect .shlPtr .shlPage) s (operandAddr s o)
      (operandByte s o <<< 1)
      { s with cf := (operandByte s o).getLsbD 7 } ∧
    CompletesStoring (atForm o .shrDirect .shrPtr .shrPage) s (operandAddr s o)
      (operandByte s o >>> 1)
      { s with cf := (operandByte s o).getLsbD 0 } ∧
    CompletesStoring (atForm o .shlcDirect .shlcPtr .shlcPage) s (operandAddr s o)
      (operandByte s o <<< 1 ||| carryByte s)
      { s with cf := (operandByte s o).getLsbD 7 } ∧
    CompletesStoring (atForm o .shrcDirect .shrcPtr .shrcPage) s (operandAddr s o)
      (operandByte s o >>> 1 ||| carryByte s <<< 7)
      { s with cf := (operandByte s o).getLsbD 0 }

/-- AND, XOR, OR to memory with A (C for [A:B]): the result stored, ZF from it, CF kept (R240, R241, R242). -/
def Obligations.LogicToMemoryComplete : Prop :=
  ∀ (s : State) (o : Operand), Writable s o →
    CompletesStoring (atForm o .andDirectA .andPtrC .andPageA) s (operandAddr s o)
      (operandByte s o &&& memoryPartner s o)
      { s with zf := decide (operandByte s o &&& memoryPartner s o = 0) } ∧
    CompletesStoring (atForm o .xorDirectA .xorPtrC .xorPageA) s (operandAddr s o)
      (operandByte s o ^^^ memoryPartner s o)
      { s with zf := decide (operandByte s o ^^^ memoryPartner s o = 0) } ∧
    CompletesStoring (atForm o .orDirectA .orPtrC .orPageA) s (operandAddr s o)
      (operandByte s o ||| memoryPartner s o)
      { s with zf := decide (operandByte s o ||| memoryPartner s o = 0) }

/-- INC, INCC, DEC, DECC: the byte plus or minus 1 or CF; CF the carry or borrow, kept by DEC [124] and DEC [125]; ZF
from the result (R46, R261, R262, R270, R271). -/
def Obligations.IncrementsAndDecrementsComplete : Prop :=
  ∀ (s : State) (o : Operand), Writable s o →
    CompletesStoring (atForm o .incDirect .incPtr .incPage) s (operandAddr s o)
      (operandByte s o + 1)
      { s with cf := decide (operandByte s o = 255), zf := decide (operandByte s o + 1 = 0) } ∧
    CompletesStoring (atForm o .inccDirect .inccPtr .inccPage) s (operandAddr s o)
      (operandByte s o + carryByte s)
      { s with cf := s.cf && decide (operandByte s o = 255), zf := decide (operandByte s o + carryByte s = 0) } ∧
    CompletesStoring (atForm o .deccDirect .deccPtr .deccPage) s (operandAddr s o)
      (operandByte s o - carryByte s)
      { s with cf := s.cf && decide (operandByte s o = 0), zf := decide (operandByte s o - carryByte s = 0) } ∧
    CompletesStoring (atForm o .decDirect .decPtr .decPage) s (operandAddr s o)
      (operandByte s o - 1)
      { s with
        cf := if o = .direct 124 ∨ o = .direct 125 then s.cf else decide (operandByte s o = 0)
        zf := decide (operandByte s o - 1 = 0) }

/-- ADD, ADDC, SUB, SUBC to memory with A (C for [A:B]): the result stored, CF the carry or borrow, ZF from the result
(R46, R265, R266, R274, R275). -/
def Obligations.AddAndSubtractToMemoryComplete : Prop :=
  ∀ (s : State) (o : Operand), Writable s o →
    CompletesStoring (atForm o .addDirectA .addPtrC .addPageA) s (operandAddr s o)
      (operandByte s o + memoryPartner s o)
      { s with cf := decide (256 ≤ (operandByte s o).toNat + (memoryPartner s o).toNat), zf := decide (operandByte s o + memoryPartner s o = 0) } ∧
    CompletesStoring (atForm o .addcDirectA .addcPtrC .addcPageA) s (operandAddr s o)
      (operandByte s o + memoryPartner s o + carryByte s)
      { s with cf := decide (256 ≤ (operandByte s o).toNat + (memoryPartner s o).toNat + (carryByte s).toNat), zf := decide (operandByte s o + memoryPartner s o + carryByte s = 0) } ∧
    CompletesStoring (atForm o .subDirectA .subPtrC .subPageA) s (operandAddr s o)
      (operandByte s o - memoryPartner s o)
      { s with cf := decide ((operandByte s o).toNat < (memoryPartner s o).toNat), zf := decide (operandByte s o - memoryPartner s o = 0) } ∧
    CompletesStoring (atForm o .subcDirectA .subcPtrC .subcPageA) s (operandAddr s o)
      (operandByte s o - memoryPartner s o - carryByte s)
      { s with cf := decide ((operandByte s o).toNat < (memoryPartner s o).toNat + (carryByte s).toNat), zf := decide (operandByte s o - memoryPartner s o - carryByte s = 0) }

/-- ADD, ADDC to A add the source; SUB, SUBC to A give source minus A: A the result, CF the carry or borrow, ZF from
the result (R46, R267, R268, R276, R277). -/
def Obligations.AddAndSubtractToAComplete : Prop :=
  ∀ (s : State) (o : Operand), SourceReadable s o →
    exec (atForm o .addADirect .addAC .addAPage) s = .next { s with
      a := s.a + sourceByte s o, cf := decide (256 ≤ (s.a).toNat + (sourceByte s o).toNat), zf := decide (s.a + sourceByte s o = 0) } ∧
    exec (atForm o .addcADirect .addcAC .addcAPage) s = .next { s with
      a := s.a + sourceByte s o + carryByte s, cf := decide (256 ≤ (s.a).toNat + (sourceByte s o).toNat + (carryByte s).toNat), zf := decide (s.a + sourceByte s o + carryByte s = 0) } ∧
    exec (atForm o .subADirect .subAC .subAPage) s = .next { s with
      a := sourceByte s o - s.a, cf := decide ((sourceByte s o).toNat < (s.a).toNat), zf := decide (sourceByte s o - s.a = 0) } ∧
    exec (atForm o .subcADirect .subcAC .subcAPage) s = .next { s with
      a := sourceByte s o - s.a - carryByte s, cf := decide ((sourceByte s o).toNat < (s.a).toNat + (carryByte s).toNat), zf := decide (sourceByte s o - s.a - carryByte s = 0) }

/-- INCX, INCXC, DECX, DECXC: memory stepped, A the old byte, B the old A, CF and ZF from the step (R46, R263, R264,
R272, R273). -/
def Obligations.ExchangeFormsComplete : Prop :=
  ∀ (s : State) (o : Operand), Writable s o →
    CompletesStoring (atForm o .incxDirect .incxPtr .incxPage) s (operandAddr s o)
      (operandByte s o + 1)
      { s with a := operandByte s o, b := s.a, cf := decide (operandByte s o = 255), zf := decide (operandByte s o + 1 = 0) } ∧
    CompletesStoring (atForm o .incxcDirect .incxcPtr .incxcPage) s (operandAddr s o)
      (operandByte s o + carryByte s)
      { s with a := operandByte s o, b := s.a, cf := s.cf && decide (operandByte s o = 255), zf := decide (operandByte s o + carryByte s = 0) } ∧
    CompletesStoring (atForm o .decxDirect .decxPtr .decxPage) s (operandAddr s o)
      (operandByte s o - 1)
      { s with a := operandByte s o, b := s.a, cf := decide (operandByte s o = 0), zf := decide (operandByte s o - 1 = 0) } ∧
    CompletesStoring (atForm o .decxcDirect .decxcPtr .decxcPage) s (operandAddr s o)
      (operandByte s o - carryByte s)
      { s with a := operandByte s o, b := s.a, cf := s.cf && decide (operandByte s o = 0), zf := decide (operandByte s o - carryByte s = 0) }

/-- JMP m, JMPcc A:B, JMP A:B, JMP m:B write the active counter when their condition holds, and nothing else (R301,
R303, R305, R306, R307, R308, R309, R341, R342, R343). -/
def Obligations.JumpsComplete : Prop :=
  ∀ s : State,
    (∀ m : BitVec 7, exec (.jmpDirect m) s = .next
      (if m.toNat = 121 ∧ s.cfg.jsig121Option = true ∧ s.lines.jsig121 = false then s
       else setCtr s (indexAddr s m.toNat))) ∧
    exec .jmpC0 s = .next (if s.cf = false then setCtr s (indexAddr s (s.a.toNat * 256 + s.b.toNat)) else s) ∧
    exec .jmpC1 s = .next (if s.cf = true then setCtr s (indexAddr s (s.a.toNat * 256 + s.b.toNat)) else s) ∧
    exec .jmpZ0 s = .next (if s.zf = false then setCtr s (indexAddr s (s.a.toNat * 256 + s.b.toNat)) else s) ∧
    exec .jmpZ1 s = .next (if s.zf = true then setCtr s (indexAddr s (s.a.toNat * 256 + s.b.toNat)) else s) ∧
    exec .jmpPtr s = .next (setCtr s (indexAddr s (s.a.toNat * 256 + s.b.toNat))) ∧
    (∀ m : BitVec 7, exec (.jmpPage m) s = .next (setCtr s (indexAddr s (m.toNat * 256 + s.b.toNat))))

/-- BAL m, BALcc A:B, BAL A:B, BAL m:B write the active counter and the link A:B = nxt / 2 when their condition holds
(R301, R302, R303, R309, R310, R311, R312, R313, R344, R345, R346). -/
def Obligations.BranchAndLinkComplete : Prop :=
  ∀ s : State,
    (∀ m : BitVec 7, exec (.balDirect m) s = .next
      (if m.toNat = 121 ∧ s.cfg.jsig121Option = true ∧ s.lines.jsig121 = false then s
       else linkedTo s (indexAddr s m.toNat))) ∧
    exec .balC0 s = .next (if s.cf = false then linkedTo s (indexAddr s (s.a.toNat * 256 + s.b.toNat)) else s) ∧
    exec .balC1 s = .next (if s.cf = true then linkedTo s (indexAddr s (s.a.toNat * 256 + s.b.toNat)) else s) ∧
    exec .balZ0 s = .next (if s.zf = false then linkedTo s (indexAddr s (s.a.toNat * 256 + s.b.toNat)) else s) ∧
    exec .balZ1 s = .next (if s.zf = true then linkedTo s (indexAddr s (s.a.toNat * 256 + s.b.toNat)) else s) ∧
    exec .balPtr s = .next (linkedTo s (indexAddr s (s.a.toNat * 256 + s.b.toNat))) ∧
    (∀ m : BitVec 7, exec (.balPage m) s = .next (linkedTo s (indexAddr s (m.toNat * 256 + s.b.toNat))))

/-- JR, JRC0, JRC1, JRZ0, JRZ1 by n and by B go to nxt plus twice the signed offset when their condition holds (R301,
R303, R315, R317, R319, R321, R323). -/
def Obligations.RelativeJumpsComplete : Prop :=
  ∀ (s : State) (n : Byte),
    exec (.jrRel n) s = .next (setCtr s (nxtPlus s (2 * n.toInt))) ∧
    exec .jrB s = .next (setCtr s (nxtPlus s (2 * (if s.cfg.jrbSigned then s.b.toInt else (s.b.toNat : Int))))) ∧
    exec (.jrC0Rel n) s = .next (if s.cf = false then setCtr s (nxtPlus s (2 * n.toInt)) else s) ∧
    exec .jrC0B s = .next (if s.cf = false then setCtr s (nxtPlus s (2 * (if s.cfg.jrbSigned then s.b.toInt else (s.b.toNat : Int)))) else s) ∧
    exec (.jrC1Rel n) s = .next (if s.cf = true then setCtr s (nxtPlus s (2 * n.toInt)) else s) ∧
    exec .jrC1B s = .next (if s.cf = true then setCtr s (nxtPlus s (2 * (if s.cfg.jrbSigned then s.b.toInt else (s.b.toNat : Int)))) else s) ∧
    exec (.jrZ0Rel n) s = .next (if s.zf = false then setCtr s (nxtPlus s (2 * n.toInt)) else s) ∧
    exec .jrZ0B s = .next (if s.zf = false then setCtr s (nxtPlus s (2 * (if s.cfg.jrbSigned then s.b.toInt else (s.b.toNat : Int)))) else s) ∧
    exec (.jrZ1Rel n) s = .next (if s.zf = true then setCtr s (nxtPlus s (2 * n.toInt)) else s) ∧
    exec .jrZ1B s = .next (if s.zf = true then setCtr s (nxtPlus s (2 * (if s.cfg.jrbSigned then s.b.toInt else (s.b.toNat : Int)))) else s)

/-- BR, BRC0, BRC1, BRZ0, BRZ1 by n and by B branch as JR does and leave nxt / 2 in A:B when taken (R301, R302, R303,
R316, R318, R320, R322, R324). -/
def Obligations.RelativeBranchAndLinkComplete : Prop :=
  ∀ (s : State) (n : Byte),
    exec (.brRel n) s = .next (linkedTo s (nxtPlus s (2 * n.toInt))) ∧
    exec .brB s = .next (linkedTo s (nxtPlus s (2 * (if s.cfg.jrbSigned then s.b.toInt else (s.b.toNat : Int))))) ∧
    exec (.brC0Rel n) s = .next (if s.cf = false then linkedTo s (nxtPlus s (2 * n.toInt)) else s) ∧
    exec .brC0B s = .next (if s.cf = false then linkedTo s (nxtPlus s (2 * (if s.cfg.jrbSigned then s.b.toInt else (s.b.toNat : Int)))) else s) ∧
    exec (.brC1Rel n) s = .next (if s.cf = true then linkedTo s (nxtPlus s (2 * n.toInt)) else s) ∧
    exec .brC1B s = .next (if s.cf = true then linkedTo s (nxtPlus s (2 * (if s.cfg.jrbSigned then s.b.toInt else (s.b.toNat : Int)))) else s) ∧
    exec (.brZ0Rel n) s = .next (if s.zf = false then linkedTo s (nxtPlus s (2 * n.toInt)) else s) ∧
    exec .brZ0B s = .next (if s.zf = false then linkedTo s (nxtPlus s (2 * (if s.cfg.jrbSigned then s.b.toInt else (s.b.toNat : Int)))) else s) ∧
    exec (.brZ1Rel n) s = .next (if s.zf = true then linkedTo s (nxtPlus s (2 * n.toInt)) else s) ∧
    exec .brZ1B s = .next (if s.zf = true then linkedTo s (nxtPlus s (2 * (if s.cfg.jrbSigned then s.b.toInt else (s.b.toNat : Int)))) else s)

/-- LOOPDEC n and LOOPINC n: with C not 0, branch, C minus 1 and B minus or plus 1; with C = 0, nothing (R330, R335).
-/
def Obligations.LoopsWithOffsetComplete : Prop :=
  ∀ (s : State) (n : Byte),
    (s.c ≠ 0 →
      exec (.loopdecRel n) s = .next { setCtr s (nxtPlus s (2 * n.toInt)) with c := s.c - 1, b := s.b - 1 } ∧
      exec (.loopincRel n) s = .next { setCtr s (nxtPlus s (2 * n.toInt)) with c := s.c - 1, b := s.b + 1 }) ∧
    (s.c = 0 → exec (.loopdecRel n) s = .next s ∧ exec (.loopincRel n) s = .next s)

/-- LOOPDEC 0, LOOPZERO, LOOPSHRC, LOOPSHLC under each reading of LOOP0_REPEAT: repeat themselves, fall through, or
are refused (R331, R332, R336, R337). -/
def Obligations.LoopsWithoutOffsetComplete : Prop :=
  (∀ (s : State) (self : Counter),
    (s.cfg.loop0Repeat = .repeatSelf ∧ self = nxtPlus s (-2) ∨ s.cfg.loop0Repeat = .fallthrough ∧ self = ctr s) →
    exec .loopdecZero s = .next (if s.c = 0 then s else { setCtr s self with c := s.c - 1, b := s.b - 1 }) ∧
    (Writable s .ptr →
      CompletesStoring .loopzero s (operandAddr s .ptr) (0)
        (if s.c = 0 then s else { setCtr s self with c := s.c - 1, b := s.b + 1 }) ∧
      CompletesStoring .loopshrc s (operandAddr s .ptr) (operandByte s .ptr >>> 1 ||| carryByte s <<< 7)
        (if s.c = 0 then { s with cf := (operandByte s .ptr).getLsbD 0 } else { setCtr { s with cf := (operandByte s .ptr).getLsbD 0 } self with c := s.c - 1, b := s.b - 1 }) ∧
      CompletesStoring .loopshlc s (operandAddr s .ptr) (operandByte s .ptr <<< 1 ||| carryByte s)
        (if s.c = 0 then { s with cf := (operandByte s .ptr).getLsbD 7 } else { setCtr { s with cf := (operandByte s .ptr).getLsbD 7 } self with c := s.c - 1, b := s.b + 1 }))) ∧
  (∀ s : State, s.cfg.loop0Repeat = .refuse →
    exec .loopdecZero s = .refused .loop0Open ∧ exec .loopzero s = .refused .loop0Open ∧
      exec .loopshrc s = .refused .loop0Open ∧ exec .loopshlc s = .refused .loop0Open)

/-- A hard macro entry stores xx at [0], gives C the value xx, MC the entry address of p, and sets MF (R67, R73, R370,
R374, R408). Model choice in it: log entries 16, 26 and 31. -/
def Obligations.HardMacroEntryCompletes : Prop :=
  ∀ (s : State) (p : BitVec 6) (xx : Byte),
    (s.ifBit = false → s.mf = false → Installed s (windowAddr s 0) → writeSuppressed s = false →
      CompletesStoring (.hmacro p xx) s (physData s (windowAddr s 0)) xx
        { s with
          c := xx
          mc := BitVec.ofNat 17 ((s.cfg.macroBase + p.toNat * s.cfg.macroStride) % 2 ^ s.cfg.pcw)
          mf := true }) ∧
    (s.ifBit = false → s.mf = false → writeSuppressed s = true →
      exec (.hmacro p xx) s = .next { s with
        c := xx
        mc := BitVec.ofNat 17 ((s.cfg.macroBase + p.toNat * s.cfg.macroStride) % 2 ^ s.cfg.pcw)
        mf := true }) ∧
    (s.ifBit = true → exec (.hmacro p xx) s = .refused .macroInInterrupt) ∧
    (s.ifBit = false → s.mf = true → exec (.hmacro p xx) s = .refused .macroInMillicode)

/-- A hard macro end executes its own instruction, with the fast-mode effect on B, and clears MF; a branch, loop,
SETMC, INT, RETI is refused (R371, R372, R374, R362). Model choice in it: log entry 26. -/
def Obligations.HardMacroEndRunsItsInstruction : Prop :=
  ∀ (s : State) (opmsb : Bool) (op : BitVec 6) (xx : Byte),
    (s.ifBit = false → s.mf = true → exec (.macroEnd false 0x00 xx) s = .next { s with mf := false }) ∧
    (s.ifBit = false → s.mf = true → exec (.macroEnd false 0x02 xx) s = .next { s with a := xx, mf := false }) ∧
    (∀ (d : Decoded) (t : State), s.ifBit = false → s.mf = true → endForbidden op xx = false →
      decodeUnmacroed s.cfg opmsb op xx = .ok d → exec d.instr s = .next t →
      exec (.macroEnd opmsb op xx) s = .next { t with
        b := match d.bmod with
          | .own => t.b
          | .keep => s.b
          | .inc => s.b + 1
        mf := false }) ∧
    (endForbidden op xx = true ↔
      (0x10 ≤ op.toNat ∧ op.toNat ≤ 0x1B) ∨ op = 0x38 ∨ op = 0x39 ∨ op = 0x1F ∨
        (op = 0x01 ∧ (xx = 0x28 ∨ (0xD0 ≤ xx.toNat ∧ xx.toNat ≤ 0xDF)))) ∧
    (∀ (d : Decoded) (e : Refusal), s.ifBit = false → s.mf = true → endForbidden op xx = false →
      decodeUnmacroed s.cfg opmsb op xx = .ok d → exec d.instr s = .refused e →
      exec (.macroEnd opmsb op xx) s = .refused e) ∧
    (∀ e, s.ifBit = false → s.mf = true → decodeUnmacroed s.cfg opmsb op xx = .error e →
      exec (.macroEnd opmsb op xx) s = .refused (.encoding e)) ∧
    (∀ d, s.ifBit = false → s.mf = true → decodeUnmacroed s.cfg opmsb op xx = .ok d → endForbidden op xx = true →
      exec (.macroEnd opmsb op xx) s = .refused .macroEndForbidden) ∧
    (s.ifBit = false → s.mf = false → exec (.macroEnd opmsb op xx) s = .refused .macroEndOutsideMillicode) ∧
    (s.ifBit = true → exec (.macroEnd opmsb op xx) s = .refused .macroInInterrupt)

/-- A load, LDX, OUT, SETFLAG or A,[m:B] form that violates sets AE and completes with an unspecified byte (R72, R210,
R211, R212, R352, R364, R410). Model choice in it: log entries 10, 15 and 16. -/
def Obligations.ViolatingReadsRaiseAndDeliverAnyByte : Prop :=
  ∀ s : State,
    (∀ o, operandViolates s o = true →
      exec (atForm o .ldADirect .ldAPtr .ldAPage) s = .next { s with a := Config.freeByte s.draws, ae := true, draws := s.draws + 1 } ∧
      exec (atForm o .ldBDirect .ldBPtr .ldBPage) s = .next { s with b := Config.freeByte s.draws, ae := true, draws := s.draws + 1 } ∧
      exec (atForm o .ldCDirect .ldCPtr .ldCPage) s = .next { s with c := Config.freeByte s.draws, ae := true, draws := s.draws + 1 } ∧
      exec (atForm o .ldxADirect .ldxAPtr .ldxAPage) s =
        .next { s with a := Config.freeByte s.draws, b := s.a, ae := true, draws := s.draws + 1 } ∧
      exec (atForm o .outDirect .outPtr .outPage) s =
        .next { s with io := s.io ++ [.output s.c (Config.freeByte s.draws)], ae := true, draws := s.draws + 1 } ∧
      ∃ t, exec (atForm o .setflagDirect .setflagPtr .setflagPage) s = .next t ∧
        t = { s with ae := true, draws := s.draws + 1, cf := t.cf, ofBits := t.ofBits, uf := t.uf, zf := t.zf }) ∧
    (∀ g ∈ sourcePageRows, ∀ m, operandViolates s (.page m) = true →
      ∃ t, exec (g m) s = .next t ∧
        t = { s with ae := true, draws := s.draws + 1, a := t.a, cf := t.cf, zf := t.zf })

/-- A read-modify-write or exchange form that violates sets AE, stores nothing, and otherwise completes (R72, R230,
R260, R331, R332, R336, R337, R410). Model choice in it: log entries 10 and 16. -/
def Obligations.ViolatingModificationsStoreNothing : Prop :=
  ∀ s : State,
    (∀ f ∈ modifyRows, ∀ o, operandViolates s o = true →
      ∃ t, exec (formOf f o) s = .next t ∧
        t = { s with ae := true, draws := s.draws + 1, cf := t.cf, zf := t.zf }) ∧
    (∀ f ∈ exchangeRows, ∀ o, operandViolates s o = true →
      ∃ t, exec (formOf f o) s = .next t ∧
        t = { s with ae := true, draws := s.draws + 1, cf := t.cf, zf := t.zf, a := Config.freeByte s.draws, b := s.a }) ∧
    (∀ self : Counter, operandViolates s .ptr = true →
      (s.cfg.loop0Repeat = .repeatSelf ∧ self = nxtPlus s (-2) ∨ s.cfg.loop0Repeat = .fallthrough ∧ self = ctr s) →
      exec .loopzero s = .next
        (if s.c = 0 then { s with ae := true }
         else { setCtr s self with ae := true, c := s.c - 1, b := s.b + 1 }) ∧
      exec .loopshrc s = .next
        (if s.c = 0 then { s with ae := true, draws := s.draws + 1, cf := (Config.freeByte s.draws).getLsbD 0 }
         else { setCtr s self with
           ae := true, draws := s.draws + 1, cf := (Config.freeByte s.draws).getLsbD 0, c := s.c - 1, b := s.b - 1 }) ∧
      exec .loopshlc s = .next
        (if s.c = 0 then { s with ae := true, draws := s.draws + 1, cf := (Config.freeByte s.draws).getLsbD 7 }
         else { setCtr s self with
           ae := true, draws := s.draws + 1, cf := (Config.freeByte s.draws).getLsbD 7, c := s.c - 1, b := s.b + 1 }))

/-- A store that violates sets AE and stores nothing; a copy that violates at source, destination or both sets AE and
still steps B and C (R72, R204, R205, R207, R220, R221, R222, R225, R226, R351, R410). Model choice in it: log entries
9, 10 and 16. -/
def Obligations.ViolatingStoresAndCopiesStoreNothing : Prop :=
  ∀ s : State,
    (∀ m, operandViolates s (.page m) = true → exec (.stPageA m) s = .next { s with ae := true }) ∧
    (∀ o, operandViolates s o = true →
      exec (atForm o .stDirectC .stPtrC .stPageC) s = .next { s with ae := true } ∧
      exec (atForm o .getflagDirect .getflagPtr .getflagPage) s = .next { s with ae := true } ∧
      ∃ v, exec (atForm o .inDirect .inPtr .inPage) s = .next { s with
        ae := true
        portIn := s.portIn.tail
        draws := if s.portIn = [] then s.draws + 1 else s.draws
        io := s.io ++ [.input s.c v] }) ∧
    (violates s (addrAC s) = true →
      (∀ o, Readable s o → exec (atForm o .stacpDirect .stacpPtr .stacpPage) s =
        .next { s with ae := true, b := s.b + 1, c := s.c + 1 }) ∧
      (Readable s .ptr → exec .stacPtr s = .next { s with ae := true })) ∧
    (violates s (pair s.a s.b) = true → ∀ m,
      (Readable s (.direct m) → exec (.stabDirect m) s = .next { s with ae := true } ∧
        exec (.stabpDirect m) s = .next { s with ae := true, b := s.b + 1 }) ∧
      (Readable s (.page m) → exec (.stabPage m) s = .next { s with ae := true } ∧
        exec (.stabpPage m) s = .next { s with ae := true, b := s.b + 1 })) ∧
    (StoreReaches s (addrAC s) → ∀ o, operandViolates s o = true →
      CompletesStoring (atForm o .stacpDirect .stacpPtr .stacpPage) s (physData s (addrAC s)) (Config.freeByte s.draws)
        { s with ae := true, draws := s.draws + 1, b := s.b + 1, c := s.c + 1 }) ∧
    (StoreReaches s (addrAC s) → operandViolates s .ptr = true →
      CompletesStoring .stacPtr s (physData s (addrAC s)) (Config.freeByte s.draws) { s with ae := true, draws := s.draws + 1 }) ∧
    (StoreReaches s (pair s.a s.b) → ∀ m, operandViolates s (.page m) = true →
      CompletesStoring (.stabPage m) s (physData s (pair s.a s.b)) (Config.freeByte s.draws) { s with ae := true, draws := s.draws + 1 } ∧
      CompletesStoring (.stabpPage m) s (physData s (pair s.a s.b)) (Config.freeByte s.draws)
        { s with ae := true, draws := s.draws + 1, b := s.b + 1 }) ∧
    (violates s (addrAC s) = true →
      (∀ o, operandViolates s o = true → exec (atForm o .stacpDirect .stacpPtr .stacpPage) s =
        .next { s with ae := true, draws := s.draws + 1, b := s.b + 1, c := s.c + 1 }) ∧
      (operandViolates s .ptr = true → exec .stacPtr s = .next { s with ae := true, draws := s.draws + 1 })) ∧
    (violates s (pair s.a s.b) = true → ∀ m, operandViolates s (.page m) = true →
      exec (.stabPage m) s = .next { s with ae := true, draws := s.draws + 1 } ∧
      exec (.stabpPage m) s = .next { s with ae := true, draws := s.draws + 1, b := s.b + 1 }) ∧
    (operandViolates s .ptr = true → Installed s (addrC s) → writeSuppressed s = false →
      CompletesStoring .stzcpPtr s (physData s (addrC s)) (Config.freeByte s.draws)
        { s with ae := true, draws := s.draws + 1, b := s.b + 1, c := s.c + 1 })

/-- After PMEMACC in user mode no instruction writes memory (R67, R73, R161). Model choice in it: log entry 31. -/
def Obligations.SuppressedWritesStoreNothing : Prop :=
  (∀ (i : Instr) (s t : State), writeSuppressed s = true → exec i s = .next t →
    ∀ p, Memory.read t.mem p = Memory.read s.mem p) ∧
  (∀ f ∈ modifyRows ++ exchangeRows, ∀ (s : State) (o : Operand), writeSuppressed s = true → Readable s o →
    ∃ t, exec (formOf f o) s = .next t ∧ t.ae = s.ae)

/-- An access to a data address outside the installed memory is refused with its physical address (R63, R72). -/
def Obligations.AbsentMemoryStopsTheMachine : Prop :=
  (∀ (s : State) (o : Operand), operandViolates s o = false → s.cfg.memBytes ≤ operandAddr s o →
    (∀ f ∈ modifyRows ++ exchangeRows ++ readRows, exec (formOf f o) s = .refused (.absentMemory (operandAddr s o))) ∧
    exec (atForm o .stacpDirect .stacpPtr .stacpPage) s = .refused (.absentMemory (operandAddr s o)) ∧
    (writeSuppressed s = false → ∀ f ∈ storeRows, exec (formOf f o) s = .refused (.absentMemory (operandAddr s o))) ∧
    (∀ m, o = .direct m →
      (∀ g ∈ sourceDirectRows, exec (g m) s = .refused (.absentMemory (operandAddr s o))) ∧
      exec (.stabDirect m) s = .refused (.absentMemory (operandAddr s o)) ∧
      exec (.stabpDirect m) s = .refused (.absentMemory (operandAddr s o)) ∧
      (s.ifBit = true → exec (.reti m) s = .refused (.absentMemory (operandAddr s o)))) ∧
    (∀ m, o = .page m →
      (∀ g ∈ sourcePageRows, exec (g m) s = .refused (.absentMemory (operandAddr s o))) ∧
      exec (.stabPage m) s = .refused (.absentMemory (operandAddr s o)) ∧
      exec (.stabpPage m) s = .refused (.absentMemory (operandAddr s o))) ∧
    (o = .ptr →
      exec .stacPtr s = .refused (.absentMemory (operandAddr s o)) ∧
      exec .stzcpPtr s = .refused (.absentMemory (operandAddr s o)) ∧
      (s.cfg.loop0Repeat ≠ .refuse →
        exec .loopshrc s = .refused (.absentMemory (operandAddr s o)) ∧
        exec .loopshlc s = .refused (.absentMemory (operandAddr s o)) ∧
        (writeSuppressed s = false → exec .loopzero s = .refused (.absentMemory (operandAddr s o))))) ∧
    (writeSuppressed s = false → ∀ m,
      (o = .direct m → exec (.stDirectA m) s = .refused (.absentMemory (operandAddr s o)) ∧
        exec (.stDirectB m) s = .refused (.absentMemory (operandAddr s o)) ∧
        exec (.zero m) s = .refused (.absentMemory (operandAddr s o))) ∧
      (o = .page m → exec (.stPageA m) s = .refused (.absentMemory (operandAddr s o))))) ∧
  (∀ s : State, writeSuppressed s = false →
    (violates s (addrAC s) = false → s.cfg.memBytes ≤ physData s (addrAC s) →
      (∀ o, operandViolates s o = true ∨ Readable s o →
        exec (atForm o .stacpDirect .stacpPtr .stacpPage) s = .refused (.absentMemory (physData s (addrAC s)))) ∧
      (operandViolates s .ptr = true ∨ Readable s .ptr →
        exec .stacPtr s = .refused (.absentMemory (physData s (addrAC s))))) ∧
    (violates s (pair s.a s.b) = false → s.cfg.memBytes ≤ physData s (pair s.a s.b) → ∀ m,
      (Readable s (.direct m) →
        exec (.stabDirect m) s = .refused (.absentMemory (physData s (pair s.a s.b))) ∧
        exec (.stabpDirect m) s = .refused (.absentMemory (physData s (pair s.a s.b)))) ∧
      (operandViolates s (.page m) = true ∨ Readable s (.page m) →
        exec (.stabPage m) s = .refused (.absentMemory (physData s (pair s.a s.b))) ∧
        exec (.stabpPage m) s = .refused (.absentMemory (physData s (pair s.a s.b))))) ∧
    (s.cfg.memBytes ≤ physData s (addrC s) → operandViolates s .ptr = true ∨ Readable s .ptr →
      exec .stzcpPtr s = .refused (.absentMemory (physData s (addrC s)))) ∧
    (s.ifBit = false → s.mf = false → s.cfg.memBytes ≤ physData s (windowAddr s 0) → ∀ p xx,
      exec (.hmacro p xx) s = .refused (.absentMemory (physData s (windowAddr s 0))))) ∧
  (∀ s : State, s.cfg.hasMulx = true → s.cfg.memBytes ≤ physData s (windowAddr s 0) →
    exec .mulx s = .refused (.absentMemory (physData s (windowAddr s 0))))

/-- After a branch-and-link that was taken, JMP A:B returns to the instruction after it (R302, R307, R340). -/
def Obligations.CallThenReturnComesBack : Prop :=
  ∀ (i : Instr) (s t : State), isLinking i = true → s.cfg.pcw ≤ 17 → CounterOk s.cfg (ctr s) → exec i s = .next t →
    t = s ∨ ∃ u, exec .jmpPtr t = .next u ∧ ctr u = ctr s

/-- GETFLAG [m] at the head of a handler and RETI [m] at its end restore CF, OF, UF and ZF (R204, R420, R422). -/
def Obligations.FlagsSurviveAnInterrupt : Prop :=
  ∀ (s t u : State) (m : BitVec 7), s.ifBit = true → Writable s (.direct m) → exec (.getflagDirect m) s = .next t →
    u.cfg = s.cfg → u.ifBit = true → u.mf = s.mf → u.paccNow = s.paccNow →
    Memory.read u.mem (operandAddr s (.direct m)) = Memory.read t.mem (operandAddr s (.direct m)) →
    ∃ v, exec (.reti m) u = .next v ∧ v.ifBit = false ∧ v.cf = s.cf ∧ v.ofBits = s.ofBits ∧ v.zf = s.zf ∧ v.mf = s.mf ∧
      inUser v = inUser s

/-- INCX [lo] then INCXC [hi] puts the old 16-bit pointer into A:B and adds 1 to it in memory (R263, R264). -/
def Obligations.PointerStepsAsSixteenBits : Prop :=
  ∀ (s : State) (lo hi : BitVec 7), lo ≠ hi → Writable s (.direct lo) → Writable s (.direct hi) →
    ∃ t u, exec (.incxDirect lo) s = .next t ∧ exec (.incxcDirect hi) t = .next u ∧
      u.a = operandByte s (.direct hi) ∧ u.b = operandByte s (.direct lo) ∧
      (operandByte u (.direct hi)).toNat * 256 + (operandByte u (.direct lo)).toNat =
        ((operandByte s (.direct hi)).toNat * 256 + (operandByte s (.direct lo)).toNat + 1) % 65536 ∧
      u.cf = decide ((operandByte s (.direct hi)).toNat * 256 + (operandByte s (.direct lo)).toNat = 65535)

/-- A hard macro entry leaves PC as the return address, and the end of the millicode makes it the active counter again
(R370, R371, R27, R28). -/
def Obligations.HardMacroReturnsToTheCaller : Prop :=
  ∀ (s t : State) (p : BitVec 6) (xx : Byte), exec (.hmacro p xx) s = .next t →
    ctr t = BitVec.ofNat 17 ((s.cfg.macroBase + p.toNat * s.cfg.macroStride) % 2 ^ s.cfg.pcw) ∧ t.pc = s.pc ∧ ctr s = s.pc ∧
    ∀ (u : State) (yy : Byte), u.ifBit = false → u.mf = true → u.pc = t.pc →
      ∃ v, exec (.macroEnd false 0x00 yy) u = .next v ∧ ctr v = ctr s
end

