-- ==== Sys2Proof/Laws/Memory.lean ====
section
/-!
SUPPORT. The laws of memory: what a read gives after a write, and that every operation keeps the canonical form.
-/

namespace Sys2Proof.Machine

open Sys2Proof

@[simp] theorem read_erase_same (mem : List Host.Cell) (p : Nat) :
    Memory.read (Memory.erase mem p) p = unlistedByte := by
  induction mem with
  | nil => rfl
  | cons cell rest ih =>
    obtain ⟨q, w⟩ := cell
    by_cases h : q = p <;> simp [Memory.erase, Memory.read, h, ih]

theorem read_erase_other (mem : List Host.Cell) {p q : Nat} (hq : q ≠ p) :
    Memory.read (Memory.erase mem p) q = Memory.read mem q := by
  induction mem with
  | nil => rfl
  | cons cell rest ih =>
    obtain ⟨r, w⟩ := cell
    by_cases h : r = p
    · subst h
      simp [Memory.erase, Memory.read, ih, Ne.symm hq]
    · by_cases h' : r = q
      · subst h'
        simp [Memory.erase, Memory.read, h]
      · simp [Memory.erase, Memory.read, h, h', ih]

@[simp] theorem read_insert_same (mem : List Host.Cell) (p : Nat) (v : Byte) :
    Memory.read (Memory.insert mem p v) p = v := by
  induction mem with
  | nil => simp [Memory.insert, Memory.read]
  | cons cell rest ih =>
    obtain ⟨q, w⟩ := cell
    by_cases h : q < p
    · simp [Memory.insert, Memory.read, h, ih, Nat.ne_of_lt h]
    · by_cases h' : q = p <;> simp [Memory.insert, Memory.read, h, h']

theorem read_insert_other (mem : List Host.Cell) {p q : Nat} (v : Byte) (hq : q ≠ p) :
    Memory.read (Memory.insert mem p v) q = Memory.read mem q := by
  induction mem with
  | nil => simp [Memory.insert, Memory.read, Ne.symm hq]
  | cons cell rest ih =>
    obtain ⟨r, w⟩ := cell
    by_cases h : r < p
    · by_cases h' : r = q
      · subst h'
        simp [Memory.insert, Memory.read, h]
      · simp [Memory.insert, Memory.read, h, h', ih]
    · by_cases h' : r = p
      · subst h'
        simp [Memory.insert, Memory.read, Ne.symm hq]
      · simp [Memory.insert, Memory.read, h, h', Ne.symm hq]

/-- A read gives what the latest write to the address wrote. -/
@[simp] theorem read_write_same (mem : List Host.Cell) (p : Nat) (v : Byte) :
    Memory.read (Memory.write mem p v) p = v := by
  unfold Memory.write
  split
  · simp_all
  · simp

/-- A write leaves every other address alone. -/
theorem read_write_other (mem : List Host.Cell) {p q : Nat} (v : Byte) (hq : q ≠ p) :
    Memory.read (Memory.write mem p v) q = Memory.read mem q := by
  unfold Memory.write
  split
  · exact read_erase_other mem hq
  · exact read_insert_other mem v hq

theorem read_write (mem : List Host.Cell) (p q : Nat) (v : Byte) :
    Memory.read (Memory.write mem p v) q = if q = p then v else Memory.read mem q := by
  by_cases h : q = p
  · subst h; simp
  · simp [h, read_write_other mem v h]

/-- Every listed address is above `a`. -/
def Memory.above (a : Nat) (mem : List Host.Cell) : Bool := mem.all (fun cell => decide (a < cell.1))

theorem wf_cons (q : Nat) (w : Byte) (rest : List Host.Cell) :
    Memory.wf ((q, w) :: rest) = true ↔ w ≠ unlistedByte ∧ Memory.above q rest = true ∧ Memory.wf rest = true := by
  simp [Memory.wf, Memory.above, and_assoc]

theorem mem_of_mem_erase {mem : List Host.Cell} {p : Nat} {cell : Host.Cell} (h : cell ∈ Memory.erase mem p) :
    cell ∈ mem := by
  induction mem with
  | nil => exact h
  | cons first rest ih =>
    obtain ⟨q, w⟩ := first
    unfold Memory.erase at h
    split at h
    · exact List.mem_cons_of_mem _ (ih h)
    · rcases List.mem_cons.1 h with h | h
      · exact List.mem_cons.2 (.inl h)
      · exact List.mem_cons_of_mem _ (ih h)

theorem mem_of_mem_insert {mem : List Host.Cell} {p : Nat} {v : Byte} {cell : Host.Cell}
    (h : cell ∈ Memory.insert mem p v) : cell = (p, v) ∨ cell ∈ mem := by
  induction mem with
  | nil => exact .inl (List.mem_singleton.1 h)
  | cons first rest ih =>
    obtain ⟨q, w⟩ := first
    unfold Memory.insert at h
    split at h
    · rcases List.mem_cons.1 h with h | h
      · exact .inr (List.mem_cons.2 (.inl h))
      · exact (ih h).imp id (List.mem_cons_of_mem _)
    · split at h
      · exact (List.mem_cons.1 h).imp id (List.mem_cons_of_mem _)
      · exact List.mem_cons.1 h

theorem above_erase {a : Nat} (mem : List Host.Cell) (p : Nat) (h : Memory.above a mem = true) :
    Memory.above a (Memory.erase mem p) = true :=
  List.all_eq_true.2 fun cell hc => List.all_eq_true.1 h cell (mem_of_mem_erase hc)

theorem above_insert {a : Nat} (mem : List Host.Cell) (p : Nat) (v : Byte) (h : Memory.above a mem = true) (hp : a < p) :
    Memory.above a (Memory.insert mem p v) = true := by
  refine List.all_eq_true.2 fun cell hc => ?_
  rcases mem_of_mem_insert hc with rfl | hm
  · simpa using hp
  · exact List.all_eq_true.1 h cell hm

/-- Erasing keeps the canonical form. -/
theorem wf_erase (mem : List Host.Cell) (p : Nat) (h : Memory.wf mem = true) : Memory.wf (Memory.erase mem p) = true := by
  induction mem with
  | nil => rfl
  | cons cell rest ih =>
    obtain ⟨q, w⟩ := cell
    obtain ⟨hw, ha, hr⟩ := (wf_cons q w rest).1 h
    by_cases h' : q = p
    · simpa [Memory.erase, h'] using ih hr
    · simpa [Memory.erase, h'] using (wf_cons q w _).2 ⟨hw, above_erase rest p ha, ih hr⟩

theorem above_of_lt {a b : Nat} (mem : List Host.Cell) (h : Memory.above b mem = true) (hab : a < b) :
    Memory.above a mem = true := by
  simp only [Memory.above, List.all_eq_true, decide_eq_true_eq] at h ⊢
  intro cell hc
  exact Nat.lt_trans hab (h cell hc)

/-- Inserting a listed byte keeps the canonical form. -/
theorem wf_insert (mem : List Host.Cell) (p : Nat) (v : Byte) (hv : v ≠ unlistedByte) (h : Memory.wf mem = true) :
    Memory.wf (Memory.insert mem p v) = true := by
  induction mem with
  | nil => simp [Memory.insert, Memory.wf, hv]
  | cons cell rest ih =>
    obtain ⟨q, w⟩ := cell
    obtain ⟨hw, ha, hr⟩ := (wf_cons q w rest).1 h
    by_cases h1 : q < p
    · simpa [Memory.insert, h1] using (wf_cons q w _).2 ⟨hw, above_insert rest p v ha h1, ih hr⟩
    · by_cases h2 : q = p
      · subst h2
        simpa [Memory.insert] using (wf_cons q v rest).2 ⟨hv, ha, hr⟩
      · have hpq : p < q := by omega
        have hb : Memory.above p ((q, w) :: rest) = true := by
          simpa [Memory.above, hpq] using above_of_lt rest ha hpq
        simpa [Memory.insert, h1, h2] using (wf_cons p v _).2 ⟨hv, hb, h⟩

/-- A write keeps the canonical form. -/
theorem wf_write (mem : List Host.Cell) (p : Nat) (v : Byte) (h : Memory.wf mem = true) :
    Memory.wf (Memory.write mem p v) = true := by
  unfold Memory.write
  split
  · exact wf_erase mem p h
  · exact wf_insert mem p v ‹_› h

theorem below_erase {n : Nat} (mem : List Host.Cell) (p : Nat) (h : Memory.below n mem = true) :
    Memory.below n (Memory.erase mem p) = true :=
  List.all_eq_true.2 fun cell hc => List.all_eq_true.1 h cell (mem_of_mem_erase hc)

theorem below_insert {n : Nat} (mem : List Host.Cell) (p : Nat) (v : Byte) (h : Memory.below n mem = true) (hp : p < n) :
    Memory.below n (Memory.insert mem p v) = true := by
  refine List.all_eq_true.2 fun cell hc => ?_
  rcases mem_of_mem_insert hc with rfl | hm
  · simpa using hp
  · exact List.all_eq_true.1 h cell hm

/-- A write to installed memory lists only installed addresses. -/
theorem below_write {n : Nat} (mem : List Host.Cell) (p : Nat) (v : Byte) (h : Memory.below n mem = true) (hp : p < n) :
    Memory.below n (Memory.write mem p v) = true := by
  unfold Memory.write
  split
  · exact below_erase mem p h
  · exact below_insert mem p v h hp

end Sys2Proof.Machine
end

