-- ==== Sys2Proof/Laws/State.lean ====
section
/-!
SUPPORT. For each named update of the state and each field, what the field holds after it. All hold by definition.
-/

namespace Sys2Proof.Machine

open Sys2Proof

variable (s : State)

@[simp] theorem setCtr_cfg (v : Counter) : (setCtr s v).cfg = s.cfg := rfl
@[simp] theorem setCtr_a (v : Counter) : (setCtr s v).a = s.a := rfl
@[simp] theorem setCtr_b (v : Counter) : (setCtr s v).b = s.b := rfl
@[simp] theorem setCtr_c (v : Counter) : (setCtr s v).c = s.c := rfl
@[simp] theorem setCtr_pc (v : Counter) : (setCtr s v).pc = if !s.ifBit && !s.mf then v else s.pc := rfl
@[simp] theorem setCtr_mc (v : Counter) : (setCtr s v).mc = if !s.ifBit && s.mf then v else s.mc := rfl
@[simp] theorem setCtr_ic (v : Counter) : (setCtr s v).ic = if s.ifBit then v else s.ic := rfl
@[simp] theorem setCtr_jra (v : Counter) : (setCtr s v).jra = s.jra := rfl
@[simp] theorem setCtr_zf (v : Counter) : (setCtr s v).zf = s.zf := rfl
@[simp] theorem setCtr_mf (v : Counter) : (setCtr s v).mf = s.mf := rfl
@[simp] theorem setCtr_uf (v : Counter) : (setCtr s v).uf = s.uf := rfl
@[simp] theorem setCtr_ofBits (v : Counter) : (setCtr s v).ofBits = s.ofBits := rfl
@[simp] theorem setCtr_cf (v : Counter) : (setCtr s v).cf = s.cf := rfl
@[simp] theorem setCtr_ae (v : Counter) : (setCtr s v).ae = s.ae := rfl
@[simp] theorem setCtr_tm (v : Counter) : (setCtr s v).tm = s.tm := rfl
@[simp] theorem setCtr_ef (v : Counter) : (setCtr s v).ef = s.ef := rfl
@[simp] theorem setCtr_ifBit (v : Counter) : (setCtr s v).ifBit = s.ifBit := rfl
@[simp] theorem setCtr_pacc (v : Counter) : (setCtr s v).pacc = s.pacc := rfl
@[simp] theorem setCtr_mem (v : Counter) : (setCtr s v).mem = s.mem := rfl
@[simp] theorem setCtr_lines (v : Counter) : (setCtr s v).lines = s.lines := rfl
@[simp] theorem setCtr_lineScript (v : Counter) : (setCtr s v).lineScript = s.lineScript := rfl
@[simp] theorem setCtr_portIn (v : Counter) : (setCtr s v).portIn = s.portIn := rfl
@[simp] theorem setCtr_io (v : Counter) : (setCtr s v).io = s.io := rfl
@[simp] theorem setCtr_paccNow (v : Counter) : (setCtr s v).paccNow = s.paccNow := rfl
@[simp] theorem setCtr_stale (v : Counter) : (setCtr s v).stale = s.stale := rfl
@[simp] theorem setCtr_draws (v : Counter) : (setCtr s v).draws = s.draws := rfl
@[simp] theorem setCtr_cycles (v : Counter) : (setCtr s v).cycles = s.cycles := rfl

@[simp] theorem setAB_cfg (v : DataAddr) : (setAB s v).cfg = s.cfg := rfl
@[simp] theorem setAB_a (v : DataAddr) : (setAB s v).a = v.extractLsb' 8 8 := rfl
@[simp] theorem setAB_b (v : DataAddr) : (setAB s v).b = v.extractLsb' 0 8 := rfl
@[simp] theorem setAB_c (v : DataAddr) : (setAB s v).c = s.c := rfl
@[simp] theorem setAB_pc (v : DataAddr) : (setAB s v).pc = s.pc := rfl
@[simp] theorem setAB_mc (v : DataAddr) : (setAB s v).mc = s.mc := rfl
@[simp] theorem setAB_ic (v : DataAddr) : (setAB s v).ic = s.ic := rfl
@[simp] theorem setAB_jra (v : DataAddr) : (setAB s v).jra = s.jra := rfl
@[simp] theorem setAB_zf (v : DataAddr) : (setAB s v).zf = s.zf := rfl
@[simp] theorem setAB_mf (v : DataAddr) : (setAB s v).mf = s.mf := rfl
@[simp] theorem setAB_uf (v : DataAddr) : (setAB s v).uf = s.uf := rfl
@[simp] theorem setAB_ofBits (v : DataAddr) : (setAB s v).ofBits = s.ofBits := rfl
@[simp] theorem setAB_cf (v : DataAddr) : (setAB s v).cf = s.cf := rfl
@[simp] theorem setAB_ae (v : DataAddr) : (setAB s v).ae = s.ae := rfl
@[simp] theorem setAB_tm (v : DataAddr) : (setAB s v).tm = s.tm := rfl
@[simp] theorem setAB_ef (v : DataAddr) : (setAB s v).ef = s.ef := rfl
@[simp] theorem setAB_ifBit (v : DataAddr) : (setAB s v).ifBit = s.ifBit := rfl
@[simp] theorem setAB_pacc (v : DataAddr) : (setAB s v).pacc = s.pacc := rfl
@[simp] theorem setAB_mem (v : DataAddr) : (setAB s v).mem = s.mem := rfl
@[simp] theorem setAB_lines (v : DataAddr) : (setAB s v).lines = s.lines := rfl
@[simp] theorem setAB_lineScript (v : DataAddr) : (setAB s v).lineScript = s.lineScript := rfl
@[simp] theorem setAB_portIn (v : DataAddr) : (setAB s v).portIn = s.portIn := rfl
@[simp] theorem setAB_io (v : DataAddr) : (setAB s v).io = s.io := rfl
@[simp] theorem setAB_paccNow (v : DataAddr) : (setAB s v).paccNow = s.paccNow := rfl
@[simp] theorem setAB_stale (v : DataAddr) : (setAB s v).stale = s.stale := rfl
@[simp] theorem setAB_draws (v : DataAddr) : (setAB s v).draws = s.draws := rfl
@[simp] theorem setAB_cycles (v : DataAddr) : (setAB s v).cycles = s.cycles := rfl

@[simp] theorem setUser_cfg (k : Bool) : (setUser s k).cfg = s.cfg := rfl
@[simp] theorem setUser_a (k : Bool) : (setUser s k).a = s.a := rfl
@[simp] theorem setUser_b (k : Bool) : (setUser s k).b = s.b := rfl
@[simp] theorem setUser_c (k : Bool) : (setUser s k).c = s.c := rfl
@[simp] theorem setUser_pc (k : Bool) : (setUser s k).pc = s.pc := rfl
@[simp] theorem setUser_mc (k : Bool) : (setUser s k).mc = s.mc := rfl
@[simp] theorem setUser_ic (k : Bool) : (setUser s k).ic = s.ic := rfl
@[simp] theorem setUser_jra (k : Bool) : (setUser s k).jra = s.jra := rfl
@[simp] theorem setUser_zf (k : Bool) : (setUser s k).zf = s.zf := rfl
@[simp] theorem setUser_mf (k : Bool) : (setUser s k).mf = s.mf := rfl
@[simp] theorem setUser_uf (k : Bool) : (setUser s k).uf = if s.cfg.userMode then k else s.uf := rfl
@[simp] theorem setUser_ofBits (k : Bool) : (setUser s k).ofBits = s.ofBits := rfl
@[simp] theorem setUser_cf (k : Bool) : (setUser s k).cf = s.cf := rfl
@[simp] theorem setUser_ae (k : Bool) : (setUser s k).ae = s.ae := rfl
@[simp] theorem setUser_tm (k : Bool) : (setUser s k).tm = s.tm := rfl
@[simp] theorem setUser_ef (k : Bool) : (setUser s k).ef = s.ef := rfl
@[simp] theorem setUser_ifBit (k : Bool) : (setUser s k).ifBit = s.ifBit := rfl
@[simp] theorem setUser_pacc (k : Bool) : (setUser s k).pacc = s.pacc := rfl
@[simp] theorem setUser_mem (k : Bool) : (setUser s k).mem = s.mem := rfl
@[simp] theorem setUser_lines (k : Bool) : (setUser s k).lines = s.lines := rfl
@[simp] theorem setUser_lineScript (k : Bool) : (setUser s k).lineScript = s.lineScript := rfl
@[simp] theorem setUser_portIn (k : Bool) : (setUser s k).portIn = s.portIn := rfl
@[simp] theorem setUser_io (k : Bool) : (setUser s k).io = s.io := rfl
@[simp] theorem setUser_paccNow (k : Bool) : (setUser s k).paccNow = s.paccNow := rfl
@[simp] theorem setUser_stale (k : Bool) : (setUser s k).stale = s.stale := rfl
@[simp] theorem setUser_draws (k : Bool) : (setUser s k).draws = s.draws := rfl
@[simp] theorem setUser_cycles (k : Bool) : (setUser s k).cycles = s.cycles := rfl

@[simp] theorem afterDraw_cfg : (afterDraw s).cfg = s.cfg := rfl
@[simp] theorem afterDraw_a : (afterDraw s).a = s.a := rfl
@[simp] theorem afterDraw_b : (afterDraw s).b = s.b := rfl
@[simp] theorem afterDraw_c : (afterDraw s).c = s.c := rfl
@[simp] theorem afterDraw_pc : (afterDraw s).pc = s.pc := rfl
@[simp] theorem afterDraw_mc : (afterDraw s).mc = s.mc := rfl
@[simp] theorem afterDraw_ic : (afterDraw s).ic = s.ic := rfl
@[simp] theorem afterDraw_jra : (afterDraw s).jra = s.jra := rfl
@[simp] theorem afterDraw_zf : (afterDraw s).zf = s.zf := rfl
@[simp] theorem afterDraw_mf : (afterDraw s).mf = s.mf := rfl
@[simp] theorem afterDraw_uf : (afterDraw s).uf = s.uf := rfl
@[simp] theorem afterDraw_ofBits : (afterDraw s).ofBits = s.ofBits := rfl
@[simp] theorem afterDraw_cf : (afterDraw s).cf = s.cf := rfl
@[simp] theorem afterDraw_ae : (afterDraw s).ae = s.ae := rfl
@[simp] theorem afterDraw_tm : (afterDraw s).tm = s.tm := rfl
@[simp] theorem afterDraw_ef : (afterDraw s).ef = s.ef := rfl
@[simp] theorem afterDraw_ifBit : (afterDraw s).ifBit = s.ifBit := rfl
@[simp] theorem afterDraw_pacc : (afterDraw s).pacc = s.pacc := rfl
@[simp] theorem afterDraw_mem : (afterDraw s).mem = s.mem := rfl
@[simp] theorem afterDraw_lines : (afterDraw s).lines = s.lines := rfl
@[simp] theorem afterDraw_lineScript : (afterDraw s).lineScript = s.lineScript := rfl
@[simp] theorem afterDraw_portIn : (afterDraw s).portIn = s.portIn := rfl
@[simp] theorem afterDraw_io : (afterDraw s).io = s.io := rfl
@[simp] theorem afterDraw_paccNow : (afterDraw s).paccNow = s.paccNow := rfl
@[simp] theorem afterDraw_stale : (afterDraw s).stale = s.stale := rfl
@[simp] theorem afterDraw_draws : (afterDraw s).draws = s.draws + 1 := rfl
@[simp] theorem afterDraw_cycles : (afterDraw s).cycles = s.cycles := rfl

@[simp] theorem storeByte_cfg (p : Nat) (v : Byte) : (storeByte s p v).cfg = s.cfg := rfl
@[simp] theorem storeByte_a (p : Nat) (v : Byte) : (storeByte s p v).a = s.a := rfl
@[simp] theorem storeByte_b (p : Nat) (v : Byte) : (storeByte s p v).b = s.b := rfl
@[simp] theorem storeByte_c (p : Nat) (v : Byte) : (storeByte s p v).c = s.c := rfl
@[simp] theorem storeByte_pc (p : Nat) (v : Byte) : (storeByte s p v).pc = s.pc := rfl
@[simp] theorem storeByte_mc (p : Nat) (v : Byte) : (storeByte s p v).mc = s.mc := rfl
@[simp] theorem storeByte_ic (p : Nat) (v : Byte) : (storeByte s p v).ic = s.ic := rfl
@[simp] theorem storeByte_jra (p : Nat) (v : Byte) : (storeByte s p v).jra = s.jra := rfl
@[simp] theorem storeByte_zf (p : Nat) (v : Byte) : (storeByte s p v).zf = s.zf := rfl
@[simp] theorem storeByte_mf (p : Nat) (v : Byte) : (storeByte s p v).mf = s.mf := rfl
@[simp] theorem storeByte_uf (p : Nat) (v : Byte) : (storeByte s p v).uf = s.uf := rfl
@[simp] theorem storeByte_ofBits (p : Nat) (v : Byte) : (storeByte s p v).ofBits = s.ofBits := rfl
@[simp] theorem storeByte_cf (p : Nat) (v : Byte) : (storeByte s p v).cf = s.cf := rfl
@[simp] theorem storeByte_ae (p : Nat) (v : Byte) : (storeByte s p v).ae = s.ae := rfl
@[simp] theorem storeByte_tm (p : Nat) (v : Byte) : (storeByte s p v).tm = s.tm := rfl
@[simp] theorem storeByte_ef (p : Nat) (v : Byte) : (storeByte s p v).ef = s.ef := rfl
@[simp] theorem storeByte_ifBit (p : Nat) (v : Byte) : (storeByte s p v).ifBit = s.ifBit := rfl
@[simp] theorem storeByte_pacc (p : Nat) (v : Byte) : (storeByte s p v).pacc = s.pacc := rfl
@[simp] theorem storeByte_mem (p : Nat) (v : Byte) : (storeByte s p v).mem = Memory.write s.mem p v := rfl
@[simp] theorem storeByte_lines (p : Nat) (v : Byte) : (storeByte s p v).lines = s.lines := rfl
@[simp] theorem storeByte_lineScript (p : Nat) (v : Byte) : (storeByte s p v).lineScript = s.lineScript := rfl
@[simp] theorem storeByte_portIn (p : Nat) (v : Byte) : (storeByte s p v).portIn = s.portIn := rfl
@[simp] theorem storeByte_io (p : Nat) (v : Byte) : (storeByte s p v).io = s.io := rfl
@[simp] theorem storeByte_paccNow (p : Nat) (v : Byte) : (storeByte s p v).paccNow = s.paccNow := rfl
@[simp] theorem storeByte_stale (p : Nat) (v : Byte) : (storeByte s p v).stale = some (p, Memory.read s.mem p) := rfl
@[simp] theorem storeByte_draws (p : Nat) (v : Byte) : (storeByte s p v).draws = s.draws := rfl
@[simp] theorem storeByte_cycles (p : Nat) (v : Byte) : (storeByte s p v).cycles = s.cycles := rfl

@[simp] theorem raiseViolation_cfg : (raiseViolation s).cfg = s.cfg := rfl
@[simp] theorem raiseViolation_a : (raiseViolation s).a = s.a := rfl
@[simp] theorem raiseViolation_b : (raiseViolation s).b = s.b := rfl
@[simp] theorem raiseViolation_c : (raiseViolation s).c = s.c := rfl
@[simp] theorem raiseViolation_pc : (raiseViolation s).pc = s.pc := rfl
@[simp] theorem raiseViolation_mc : (raiseViolation s).mc = s.mc := rfl
@[simp] theorem raiseViolation_ic : (raiseViolation s).ic = s.ic := rfl
@[simp] theorem raiseViolation_jra : (raiseViolation s).jra = s.jra := rfl
@[simp] theorem raiseViolation_zf : (raiseViolation s).zf = s.zf := rfl
@[simp] theorem raiseViolation_mf : (raiseViolation s).mf = s.mf := rfl
@[simp] theorem raiseViolation_uf : (raiseViolation s).uf = s.uf := rfl
@[simp] theorem raiseViolation_ofBits : (raiseViolation s).ofBits = s.ofBits := rfl
@[simp] theorem raiseViolation_cf : (raiseViolation s).cf = s.cf := rfl
@[simp] theorem raiseViolation_ae : (raiseViolation s).ae = true := rfl
@[simp] theorem raiseViolation_tm : (raiseViolation s).tm = s.tm := rfl
@[simp] theorem raiseViolation_ef : (raiseViolation s).ef = s.ef := rfl
@[simp] theorem raiseViolation_ifBit : (raiseViolation s).ifBit = s.ifBit := rfl
@[simp] theorem raiseViolation_pacc : (raiseViolation s).pacc = s.pacc := rfl
@[simp] theorem raiseViolation_mem : (raiseViolation s).mem = s.mem := rfl
@[simp] theorem raiseViolation_lines : (raiseViolation s).lines = s.lines := rfl
@[simp] theorem raiseViolation_lineScript : (raiseViolation s).lineScript = s.lineScript := rfl
@[simp] theorem raiseViolation_portIn : (raiseViolation s).portIn = s.portIn := rfl
@[simp] theorem raiseViolation_io : (raiseViolation s).io = s.io := rfl
@[simp] theorem raiseViolation_paccNow : (raiseViolation s).paccNow = s.paccNow := rfl
@[simp] theorem raiseViolation_stale : (raiseViolation s).stale = s.stale := rfl
@[simp] theorem raiseViolation_draws : (raiseViolation s).draws = s.draws := rfl
@[simp] theorem raiseViolation_cycles : (raiseViolation s).cycles = s.cycles := rfl

@[simp] theorem afterPortRead_cfg (port : Byte) : (afterPortRead s port).cfg = s.cfg := rfl
@[simp] theorem afterPortRead_a (port : Byte) : (afterPortRead s port).a = s.a := rfl
@[simp] theorem afterPortRead_b (port : Byte) : (afterPortRead s port).b = s.b := rfl
@[simp] theorem afterPortRead_c (port : Byte) : (afterPortRead s port).c = s.c := rfl
@[simp] theorem afterPortRead_pc (port : Byte) : (afterPortRead s port).pc = s.pc := rfl
@[simp] theorem afterPortRead_mc (port : Byte) : (afterPortRead s port).mc = s.mc := rfl
@[simp] theorem afterPortRead_ic (port : Byte) : (afterPortRead s port).ic = s.ic := rfl
@[simp] theorem afterPortRead_jra (port : Byte) : (afterPortRead s port).jra = s.jra := rfl
@[simp] theorem afterPortRead_zf (port : Byte) : (afterPortRead s port).zf = s.zf := rfl
@[simp] theorem afterPortRead_mf (port : Byte) : (afterPortRead s port).mf = s.mf := rfl
@[simp] theorem afterPortRead_uf (port : Byte) : (afterPortRead s port).uf = s.uf := rfl
@[simp] theorem afterPortRead_ofBits (port : Byte) : (afterPortRead s port).ofBits = s.ofBits := rfl
@[simp] theorem afterPortRead_cf (port : Byte) : (afterPortRead s port).cf = s.cf := rfl
@[simp] theorem afterPortRead_ae (port : Byte) : (afterPortRead s port).ae = s.ae := rfl
@[simp] theorem afterPortRead_tm (port : Byte) : (afterPortRead s port).tm = s.tm := rfl
@[simp] theorem afterPortRead_ef (port : Byte) : (afterPortRead s port).ef = s.ef := rfl
@[simp] theorem afterPortRead_ifBit (port : Byte) : (afterPortRead s port).ifBit = s.ifBit := rfl
@[simp] theorem afterPortRead_pacc (port : Byte) : (afterPortRead s port).pacc = s.pacc := rfl
@[simp] theorem afterPortRead_mem (port : Byte) : (afterPortRead s port).mem = s.mem := rfl
@[simp] theorem afterPortRead_lines (port : Byte) : (afterPortRead s port).lines = s.lines := rfl
@[simp] theorem afterPortRead_lineScript (port : Byte) : (afterPortRead s port).lineScript = s.lineScript := rfl
@[simp] theorem afterPortRead_portIn (port : Byte) : (afterPortRead s port).portIn = s.portIn.tail := rfl
@[simp] theorem afterPortRead_io (port : Byte) : (afterPortRead s port).io = s.io ++ [.input port (portByte s)] := rfl
@[simp] theorem afterPortRead_paccNow (port : Byte) : (afterPortRead s port).paccNow = s.paccNow := rfl
@[simp] theorem afterPortRead_stale (port : Byte) : (afterPortRead s port).stale = s.stale := rfl
@[simp] theorem afterPortRead_draws (port : Byte) : (afterPortRead s port).draws = if s.portIn.isEmpty then s.draws + 1 else s.draws := rfl
@[simp] theorem afterPortRead_cycles (port : Byte) : (afterPortRead s port).cycles = s.cycles := rfl

@[simp] theorem portWrite_cfg (port v : Byte) : (portWrite s port v).cfg = s.cfg := rfl
@[simp] theorem portWrite_a (port v : Byte) : (portWrite s port v).a = s.a := rfl
@[simp] theorem portWrite_b (port v : Byte) : (portWrite s port v).b = s.b := rfl
@[simp] theorem portWrite_c (port v : Byte) : (portWrite s port v).c = s.c := rfl
@[simp] theorem portWrite_pc (port v : Byte) : (portWrite s port v).pc = s.pc := rfl
@[simp] theorem portWrite_mc (port v : Byte) : (portWrite s port v).mc = s.mc := rfl
@[simp] theorem portWrite_ic (port v : Byte) : (portWrite s port v).ic = s.ic := rfl
@[simp] theorem portWrite_jra (port v : Byte) : (portWrite s port v).jra = s.jra := rfl
@[simp] theorem portWrite_zf (port v : Byte) : (portWrite s port v).zf = s.zf := rfl
@[simp] theorem portWrite_mf (port v : Byte) : (portWrite s port v).mf = s.mf := rfl
@[simp] theorem portWrite_uf (port v : Byte) : (portWrite s port v).uf = s.uf := rfl
@[simp] theorem portWrite_ofBits (port v : Byte) : (portWrite s port v).ofBits = s.ofBits := rfl
@[simp] theorem portWrite_cf (port v : Byte) : (portWrite s port v).cf = s.cf := rfl
@[simp] theorem portWrite_ae (port v : Byte) : (portWrite s port v).ae = s.ae := rfl
@[simp] theorem portWrite_tm (port v : Byte) : (portWrite s port v).tm = s.tm := rfl
@[simp] theorem portWrite_ef (port v : Byte) : (portWrite s port v).ef = s.ef := rfl
@[simp] theorem portWrite_ifBit (port v : Byte) : (portWrite s port v).ifBit = s.ifBit := rfl
@[simp] theorem portWrite_pacc (port v : Byte) : (portWrite s port v).pacc = s.pacc := rfl
@[simp] theorem portWrite_mem (port v : Byte) : (portWrite s port v).mem = s.mem := rfl
@[simp] theorem portWrite_lines (port v : Byte) : (portWrite s port v).lines = s.lines := rfl
@[simp] theorem portWrite_lineScript (port v : Byte) : (portWrite s port v).lineScript = s.lineScript := rfl
@[simp] theorem portWrite_portIn (port v : Byte) : (portWrite s port v).portIn = s.portIn := rfl
@[simp] theorem portWrite_io (port v : Byte) : (portWrite s port v).io = s.io ++ [.output port v] := rfl
@[simp] theorem portWrite_paccNow (port v : Byte) : (portWrite s port v).paccNow = s.paccNow := rfl
@[simp] theorem portWrite_stale (port v : Byte) : (portWrite s port v).stale = s.stale := rfl
@[simp] theorem portWrite_draws (port v : Byte) : (portWrite s port v).draws = s.draws := rfl
@[simp] theorem portWrite_cycles (port v : Byte) : (portWrite s port v).cycles = s.cycles := rfl

@[simp] theorem enterInterrupt_cfg (v : Counter) : (enterInterrupt s v).cfg = s.cfg := rfl
@[simp] theorem enterInterrupt_a (v : Counter) : (enterInterrupt s v).a = s.a := rfl
@[simp] theorem enterInterrupt_b (v : Counter) : (enterInterrupt s v).b = s.b := rfl
@[simp] theorem enterInterrupt_c (v : Counter) : (enterInterrupt s v).c = s.c := rfl
@[simp] theorem enterInterrupt_pc (v : Counter) : (enterInterrupt s v).pc = s.pc := rfl
@[simp] theorem enterInterrupt_mc (v : Counter) : (enterInterrupt s v).mc = s.mc := rfl
@[simp] theorem enterInterrupt_ic (v : Counter) : (enterInterrupt s v).ic = v := rfl
@[simp] theorem enterInterrupt_jra (v : Counter) : (enterInterrupt s v).jra = s.jra := rfl
@[simp] theorem enterInterrupt_zf (v : Counter) : (enterInterrupt s v).zf = s.zf := rfl
@[simp] theorem enterInterrupt_mf (v : Counter) : (enterInterrupt s v).mf = s.mf := rfl
@[simp] theorem enterInterrupt_uf (v : Counter) : (enterInterrupt s v).uf = s.uf := rfl
@[simp] theorem enterInterrupt_ofBits (v : Counter) : (enterInterrupt s v).ofBits = s.ofBits := rfl
@[simp] theorem enterInterrupt_cf (v : Counter) : (enterInterrupt s v).cf = s.cf := rfl
@[simp] theorem enterInterrupt_ae (v : Counter) : (enterInterrupt s v).ae = s.ae := rfl
@[simp] theorem enterInterrupt_tm (v : Counter) : (enterInterrupt s v).tm = s.tm := rfl
@[simp] theorem enterInterrupt_ef (v : Counter) : (enterInterrupt s v).ef = s.ef := rfl
@[simp] theorem enterInterrupt_ifBit (v : Counter) : (enterInterrupt s v).ifBit = true := rfl
@[simp] theorem enterInterrupt_pacc (v : Counter) : (enterInterrupt s v).pacc = s.pacc := rfl
@[simp] theorem enterInterrupt_mem (v : Counter) : (enterInterrupt s v).mem = s.mem := rfl
@[simp] theorem enterInterrupt_lines (v : Counter) : (enterInterrupt s v).lines = s.lines := rfl
@[simp] theorem enterInterrupt_lineScript (v : Counter) : (enterInterrupt s v).lineScript = s.lineScript := rfl
@[simp] theorem enterInterrupt_portIn (v : Counter) : (enterInterrupt s v).portIn = s.portIn := rfl
@[simp] theorem enterInterrupt_io (v : Counter) : (enterInterrupt s v).io = s.io := rfl
@[simp] theorem enterInterrupt_paccNow (v : Counter) : (enterInterrupt s v).paccNow = s.paccNow := rfl
@[simp] theorem enterInterrupt_stale (v : Counter) : (enterInterrupt s v).stale = s.stale := rfl
@[simp] theorem enterInterrupt_draws (v : Counter) : (enterInterrupt s v).draws = s.draws := rfl
@[simp] theorem enterInterrupt_cycles (v : Counter) : (enterInterrupt s v).cycles = s.cycles := rfl

@[simp] theorem setFlags_cfg (v : Byte) : (setFlags s v).cfg = s.cfg := rfl
@[simp] theorem setFlags_a (v : Byte) : (setFlags s v).a = s.a := rfl
@[simp] theorem setFlags_b (v : Byte) : (setFlags s v).b = s.b := rfl
@[simp] theorem setFlags_c (v : Byte) : (setFlags s v).c = s.c := rfl
@[simp] theorem setFlags_pc (v : Byte) : (setFlags s v).pc = s.pc := rfl
@[simp] theorem setFlags_mc (v : Byte) : (setFlags s v).mc = s.mc := rfl
@[simp] theorem setFlags_ic (v : Byte) : (setFlags s v).ic = s.ic := rfl
@[simp] theorem setFlags_jra (v : Byte) : (setFlags s v).jra = s.jra := rfl
@[simp] theorem setFlags_zf (v : Byte) : (setFlags s v).zf = v.getLsbD 0 := rfl
@[simp] theorem setFlags_mf (v : Byte) : (setFlags s v).mf = s.mf := rfl
@[simp] theorem setFlags_uf (v : Byte) : (setFlags s v).uf = if s.cfg.userMode then v.getLsbD 2 else s.uf := rfl
@[simp] theorem setFlags_ofBits (v : Byte) : (setFlags s v).ofBits = v.extractLsb' 3 2 := rfl
@[simp] theorem setFlags_cf (v : Byte) : (setFlags s v).cf = v.getLsbD 7 := rfl
@[simp] theorem setFlags_ae (v : Byte) : (setFlags s v).ae = s.ae := rfl
@[simp] theorem setFlags_tm (v : Byte) : (setFlags s v).tm = s.tm := rfl
@[simp] theorem setFlags_ef (v : Byte) : (setFlags s v).ef = s.ef := rfl
@[simp] theorem setFlags_ifBit (v : Byte) : (setFlags s v).ifBit = s.ifBit := rfl
@[simp] theorem setFlags_pacc (v : Byte) : (setFlags s v).pacc = s.pacc := rfl
@[simp] theorem setFlags_mem (v : Byte) : (setFlags s v).mem = s.mem := rfl
@[simp] theorem setFlags_lines (v : Byte) : (setFlags s v).lines = s.lines := rfl
@[simp] theorem setFlags_lineScript (v : Byte) : (setFlags s v).lineScript = s.lineScript := rfl
@[simp] theorem setFlags_portIn (v : Byte) : (setFlags s v).portIn = s.portIn := rfl
@[simp] theorem setFlags_io (v : Byte) : (setFlags s v).io = s.io := rfl
@[simp] theorem setFlags_paccNow (v : Byte) : (setFlags s v).paccNow = s.paccNow := rfl
@[simp] theorem setFlags_stale (v : Byte) : (setFlags s v).stale = s.stale := rfl
@[simp] theorem setFlags_draws (v : Byte) : (setFlags s v).draws = s.draws := rfl
@[simp] theorem setFlags_cycles (v : Byte) : (setFlags s v).cycles = s.cycles := rfl

@[simp] theorem leaveInterrupt_cfg (v : Byte) : (leaveInterrupt s v).cfg = s.cfg := rfl
@[simp] theorem leaveInterrupt_a (v : Byte) : (leaveInterrupt s v).a = s.a := rfl
@[simp] theorem leaveInterrupt_b (v : Byte) : (leaveInterrupt s v).b = s.b := rfl
@[simp] theorem leaveInterrupt_c (v : Byte) : (leaveInterrupt s v).c = s.c := rfl
@[simp] theorem leaveInterrupt_pc (v : Byte) : (leaveInterrupt s v).pc = s.pc := rfl
@[simp] theorem leaveInterrupt_mc (v : Byte) : (leaveInterrupt s v).mc = s.mc := rfl
@[simp] theorem leaveInterrupt_ic (v : Byte) : (leaveInterrupt s v).ic = s.ic := rfl
@[simp] theorem leaveInterrupt_jra (v : Byte) : (leaveInterrupt s v).jra = s.jra := rfl
@[simp] theorem leaveInterrupt_zf (v : Byte) : (leaveInterrupt s v).zf = v.getLsbD 0 := rfl
@[simp] theorem leaveInterrupt_mf (v : Byte) : (leaveInterrupt s v).mf = s.mf := rfl
@[simp] theorem leaveInterrupt_uf (v : Byte) : (leaveInterrupt s v).uf = if s.cfg.userMode then v.getLsbD 2 else s.uf := rfl
@[simp] theorem leaveInterrupt_ofBits (v : Byte) : (leaveInterrupt s v).ofBits = v.extractLsb' 3 2 := rfl
@[simp] theorem leaveInterrupt_cf (v : Byte) : (leaveInterrupt s v).cf = v.getLsbD 7 := rfl
@[simp] theorem leaveInterrupt_ae (v : Byte) : (leaveInterrupt s v).ae = s.ae := rfl
@[simp] theorem leaveInterrupt_tm (v : Byte) : (leaveInterrupt s v).tm = s.tm := rfl
@[simp] theorem leaveInterrupt_ef (v : Byte) : (leaveInterrupt s v).ef = s.ef := rfl
@[simp] theorem leaveInterrupt_ifBit (v : Byte) : (leaveInterrupt s v).ifBit = false := rfl
@[simp] theorem leaveInterrupt_pacc (v : Byte) : (leaveInterrupt s v).pacc = s.pacc := rfl
@[simp] theorem leaveInterrupt_mem (v : Byte) : (leaveInterrupt s v).mem = s.mem := rfl
@[simp] theorem leaveInterrupt_lines (v : Byte) : (leaveInterrupt s v).lines = s.lines := rfl
@[simp] theorem leaveInterrupt_lineScript (v : Byte) : (leaveInterrupt s v).lineScript = s.lineScript := rfl
@[simp] theorem leaveInterrupt_portIn (v : Byte) : (leaveInterrupt s v).portIn = s.portIn := rfl
@[simp] theorem leaveInterrupt_io (v : Byte) : (leaveInterrupt s v).io = s.io := rfl
@[simp] theorem leaveInterrupt_paccNow (v : Byte) : (leaveInterrupt s v).paccNow = s.paccNow := rfl
@[simp] theorem leaveInterrupt_stale (v : Byte) : (leaveInterrupt s v).stale = s.stale := rfl
@[simp] theorem leaveInterrupt_draws (v : Byte) : (leaveInterrupt s v).draws = s.draws := rfl
@[simp] theorem leaveInterrupt_cycles (v : Byte) : (leaveInterrupt s v).cycles = s.cycles := rfl

@[simp] theorem setCarryZero_cfg (r : WithCarry) : (setCarryZero s r).cfg = s.cfg := rfl
@[simp] theorem setCarryZero_a (r : WithCarry) : (setCarryZero s r).a = s.a := rfl
@[simp] theorem setCarryZero_b (r : WithCarry) : (setCarryZero s r).b = s.b := rfl
@[simp] theorem setCarryZero_c (r : WithCarry) : (setCarryZero s r).c = s.c := rfl
@[simp] theorem setCarryZero_pc (r : WithCarry) : (setCarryZero s r).pc = s.pc := rfl
@[simp] theorem setCarryZero_mc (r : WithCarry) : (setCarryZero s r).mc = s.mc := rfl
@[simp] theorem setCarryZero_ic (r : WithCarry) : (setCarryZero s r).ic = s.ic := rfl
@[simp] theorem setCarryZero_jra (r : WithCarry) : (setCarryZero s r).jra = s.jra := rfl
@[simp] theorem setCarryZero_zf (r : WithCarry) : (setCarryZero s r).zf = isZero r.result := rfl
@[simp] theorem setCarryZero_mf (r : WithCarry) : (setCarryZero s r).mf = s.mf := rfl
@[simp] theorem setCarryZero_uf (r : WithCarry) : (setCarryZero s r).uf = s.uf := rfl
@[simp] theorem setCarryZero_ofBits (r : WithCarry) : (setCarryZero s r).ofBits = s.ofBits := rfl
@[simp] theorem setCarryZero_cf (r : WithCarry) : (setCarryZero s r).cf = r.carry := rfl
@[simp] theorem setCarryZero_ae (r : WithCarry) : (setCarryZero s r).ae = s.ae := rfl
@[simp] theorem setCarryZero_tm (r : WithCarry) : (setCarryZero s r).tm = s.tm := rfl
@[simp] theorem setCarryZero_ef (r : WithCarry) : (setCarryZero s r).ef = s.ef := rfl
@[simp] theorem setCarryZero_ifBit (r : WithCarry) : (setCarryZero s r).ifBit = s.ifBit := rfl
@[simp] theorem setCarryZero_pacc (r : WithCarry) : (setCarryZero s r).pacc = s.pacc := rfl
@[simp] theorem setCarryZero_mem (r : WithCarry) : (setCarryZero s r).mem = s.mem := rfl
@[simp] theorem setCarryZero_lines (r : WithCarry) : (setCarryZero s r).lines = s.lines := rfl
@[simp] theorem setCarryZero_lineScript (r : WithCarry) : (setCarryZero s r).lineScript = s.lineScript := rfl
@[simp] theorem setCarryZero_portIn (r : WithCarry) : (setCarryZero s r).portIn = s.portIn := rfl
@[simp] theorem setCarryZero_io (r : WithCarry) : (setCarryZero s r).io = s.io := rfl
@[simp] theorem setCarryZero_paccNow (r : WithCarry) : (setCarryZero s r).paccNow = s.paccNow := rfl
@[simp] theorem setCarryZero_stale (r : WithCarry) : (setCarryZero s r).stale = s.stale := rfl
@[simp] theorem setCarryZero_draws (r : WithCarry) : (setCarryZero s r).draws = s.draws := rfl
@[simp] theorem setCarryZero_cycles (r : WithCarry) : (setCarryZero s r).cycles = s.cycles := rfl

@[simp] theorem setCarry_cfg (r : WithCarry) : (setCarry s r).cfg = s.cfg := rfl
@[simp] theorem setCarry_a (r : WithCarry) : (setCarry s r).a = s.a := rfl
@[simp] theorem setCarry_b (r : WithCarry) : (setCarry s r).b = s.b := rfl
@[simp] theorem setCarry_c (r : WithCarry) : (setCarry s r).c = s.c := rfl
@[simp] theorem setCarry_pc (r : WithCarry) : (setCarry s r).pc = s.pc := rfl
@[simp] theorem setCarry_mc (r : WithCarry) : (setCarry s r).mc = s.mc := rfl
@[simp] theorem setCarry_ic (r : WithCarry) : (setCarry s r).ic = s.ic := rfl
@[simp] theorem setCarry_jra (r : WithCarry) : (setCarry s r).jra = s.jra := rfl
@[simp] theorem setCarry_zf (r : WithCarry) : (setCarry s r).zf = s.zf := rfl
@[simp] theorem setCarry_mf (r : WithCarry) : (setCarry s r).mf = s.mf := rfl
@[simp] theorem setCarry_uf (r : WithCarry) : (setCarry s r).uf = s.uf := rfl
@[simp] theorem setCarry_ofBits (r : WithCarry) : (setCarry s r).ofBits = s.ofBits := rfl
@[simp] theorem setCarry_cf (r : WithCarry) : (setCarry s r).cf = r.carry := rfl
@[simp] theorem setCarry_ae (r : WithCarry) : (setCarry s r).ae = s.ae := rfl
@[simp] theorem setCarry_tm (r : WithCarry) : (setCarry s r).tm = s.tm := rfl
@[simp] theorem setCarry_ef (r : WithCarry) : (setCarry s r).ef = s.ef := rfl
@[simp] theorem setCarry_ifBit (r : WithCarry) : (setCarry s r).ifBit = s.ifBit := rfl
@[simp] theorem setCarry_pacc (r : WithCarry) : (setCarry s r).pacc = s.pacc := rfl
@[simp] theorem setCarry_mem (r : WithCarry) : (setCarry s r).mem = s.mem := rfl
@[simp] theorem setCarry_lines (r : WithCarry) : (setCarry s r).lines = s.lines := rfl
@[simp] theorem setCarry_lineScript (r : WithCarry) : (setCarry s r).lineScript = s.lineScript := rfl
@[simp] theorem setCarry_portIn (r : WithCarry) : (setCarry s r).portIn = s.portIn := rfl
@[simp] theorem setCarry_io (r : WithCarry) : (setCarry s r).io = s.io := rfl
@[simp] theorem setCarry_paccNow (r : WithCarry) : (setCarry s r).paccNow = s.paccNow := rfl
@[simp] theorem setCarry_stale (r : WithCarry) : (setCarry s r).stale = s.stale := rfl
@[simp] theorem setCarry_draws (r : WithCarry) : (setCarry s r).draws = s.draws := rfl
@[simp] theorem setCarry_cycles (r : WithCarry) : (setCarry s r).cycles = s.cycles := rfl

@[simp] theorem setZero_cfg (r : Byte) : (setZero s r).cfg = s.cfg := rfl
@[simp] theorem setZero_a (r : Byte) : (setZero s r).a = s.a := rfl
@[simp] theorem setZero_b (r : Byte) : (setZero s r).b = s.b := rfl
@[simp] theorem setZero_c (r : Byte) : (setZero s r).c = s.c := rfl
@[simp] theorem setZero_pc (r : Byte) : (setZero s r).pc = s.pc := rfl
@[simp] theorem setZero_mc (r : Byte) : (setZero s r).mc = s.mc := rfl
@[simp] theorem setZero_ic (r : Byte) : (setZero s r).ic = s.ic := rfl
@[simp] theorem setZero_jra (r : Byte) : (setZero s r).jra = s.jra := rfl
@[simp] theorem setZero_zf (r : Byte) : (setZero s r).zf = isZero r := rfl
@[simp] theorem setZero_mf (r : Byte) : (setZero s r).mf = s.mf := rfl
@[simp] theorem setZero_uf (r : Byte) : (setZero s r).uf = s.uf := rfl
@[simp] theorem setZero_ofBits (r : Byte) : (setZero s r).ofBits = s.ofBits := rfl
@[simp] theorem setZero_cf (r : Byte) : (setZero s r).cf = s.cf := rfl
@[simp] theorem setZero_ae (r : Byte) : (setZero s r).ae = s.ae := rfl
@[simp] theorem setZero_tm (r : Byte) : (setZero s r).tm = s.tm := rfl
@[simp] theorem setZero_ef (r : Byte) : (setZero s r).ef = s.ef := rfl
@[simp] theorem setZero_ifBit (r : Byte) : (setZero s r).ifBit = s.ifBit := rfl
@[simp] theorem setZero_pacc (r : Byte) : (setZero s r).pacc = s.pacc := rfl
@[simp] theorem setZero_mem (r : Byte) : (setZero s r).mem = s.mem := rfl
@[simp] theorem setZero_lines (r : Byte) : (setZero s r).lines = s.lines := rfl
@[simp] theorem setZero_lineScript (r : Byte) : (setZero s r).lineScript = s.lineScript := rfl
@[simp] theorem setZero_portIn (r : Byte) : (setZero s r).portIn = s.portIn := rfl
@[simp] theorem setZero_io (r : Byte) : (setZero s r).io = s.io := rfl
@[simp] theorem setZero_paccNow (r : Byte) : (setZero s r).paccNow = s.paccNow := rfl
@[simp] theorem setZero_stale (r : Byte) : (setZero s r).stale = s.stale := rfl
@[simp] theorem setZero_draws (r : Byte) : (setZero s r).draws = s.draws := rfl
@[simp] theorem setZero_cycles (r : Byte) : (setZero s r).cycles = s.cycles := rfl

@[simp] theorem logicA_cfg (f : Byte → Byte → Byte) (v : Byte) : (logicA f v s).cfg = s.cfg := rfl
@[simp] theorem logicA_a (f : Byte → Byte → Byte) (v : Byte) : (logicA f v s).a = f s.a v := rfl
@[simp] theorem logicA_b (f : Byte → Byte → Byte) (v : Byte) : (logicA f v s).b = s.b := rfl
@[simp] theorem logicA_c (f : Byte → Byte → Byte) (v : Byte) : (logicA f v s).c = s.c := rfl
@[simp] theorem logicA_pc (f : Byte → Byte → Byte) (v : Byte) : (logicA f v s).pc = s.pc := rfl
@[simp] theorem logicA_mc (f : Byte → Byte → Byte) (v : Byte) : (logicA f v s).mc = s.mc := rfl
@[simp] theorem logicA_ic (f : Byte → Byte → Byte) (v : Byte) : (logicA f v s).ic = s.ic := rfl
@[simp] theorem logicA_jra (f : Byte → Byte → Byte) (v : Byte) : (logicA f v s).jra = s.jra := rfl
@[simp] theorem logicA_zf (f : Byte → Byte → Byte) (v : Byte) : (logicA f v s).zf = isZero (f s.a v) := rfl
@[simp] theorem logicA_mf (f : Byte → Byte → Byte) (v : Byte) : (logicA f v s).mf = s.mf := rfl
@[simp] theorem logicA_uf (f : Byte → Byte → Byte) (v : Byte) : (logicA f v s).uf = s.uf := rfl
@[simp] theorem logicA_ofBits (f : Byte → Byte → Byte) (v : Byte) : (logicA f v s).ofBits = s.ofBits := rfl
@[simp] theorem logicA_cf (f : Byte → Byte → Byte) (v : Byte) : (logicA f v s).cf = s.cf := rfl
@[simp] theorem logicA_ae (f : Byte → Byte → Byte) (v : Byte) : (logicA f v s).ae = s.ae := rfl
@[simp] theorem logicA_tm (f : Byte → Byte → Byte) (v : Byte) : (logicA f v s).tm = s.tm := rfl
@[simp] theorem logicA_ef (f : Byte → Byte → Byte) (v : Byte) : (logicA f v s).ef = s.ef := rfl
@[simp] theorem logicA_ifBit (f : Byte → Byte → Byte) (v : Byte) : (logicA f v s).ifBit = s.ifBit := rfl
@[simp] theorem logicA_pacc (f : Byte → Byte → Byte) (v : Byte) : (logicA f v s).pacc = s.pacc := rfl
@[simp] theorem logicA_mem (f : Byte → Byte → Byte) (v : Byte) : (logicA f v s).mem = s.mem := rfl
@[simp] theorem logicA_lines (f : Byte → Byte → Byte) (v : Byte) : (logicA f v s).lines = s.lines := rfl
@[simp] theorem logicA_lineScript (f : Byte → Byte → Byte) (v : Byte) : (logicA f v s).lineScript = s.lineScript := rfl
@[simp] theorem logicA_portIn (f : Byte → Byte → Byte) (v : Byte) : (logicA f v s).portIn = s.portIn := rfl
@[simp] theorem logicA_io (f : Byte → Byte → Byte) (v : Byte) : (logicA f v s).io = s.io := rfl
@[simp] theorem logicA_paccNow (f : Byte → Byte → Byte) (v : Byte) : (logicA f v s).paccNow = s.paccNow := rfl
@[simp] theorem logicA_stale (f : Byte → Byte → Byte) (v : Byte) : (logicA f v s).stale = s.stale := rfl
@[simp] theorem logicA_draws (f : Byte → Byte → Byte) (v : Byte) : (logicA f v s).draws = s.draws := rfl
@[simp] theorem logicA_cycles (f : Byte → Byte → Byte) (v : Byte) : (logicA f v s).cycles = s.cycles := rfl

@[simp] theorem link_cfg (v : Counter) : (link s v).cfg = s.cfg := rfl
@[simp] theorem link_a (v : Counter) : (link s v).a = (ctrIndex v).extractLsb' 8 8 := rfl
@[simp] theorem link_b (v : Counter) : (link s v).b = (ctrIndex v).extractLsb' 0 8 := rfl
@[simp] theorem link_c (v : Counter) : (link s v).c = s.c := rfl
@[simp] theorem link_pc (v : Counter) : (link s v).pc = s.pc := rfl
@[simp] theorem link_mc (v : Counter) : (link s v).mc = s.mc := rfl
@[simp] theorem link_ic (v : Counter) : (link s v).ic = s.ic := rfl
@[simp] theorem link_jra (v : Counter) : (link s v).jra = s.jra := rfl
@[simp] theorem link_zf (v : Counter) : (link s v).zf = s.zf := rfl
@[simp] theorem link_mf (v : Counter) : (link s v).mf = s.mf := rfl
@[simp] theorem link_uf (v : Counter) : (link s v).uf = s.uf := rfl
@[simp] theorem link_ofBits (v : Counter) : (link s v).ofBits = s.ofBits := rfl
@[simp] theorem link_cf (v : Counter) : (link s v).cf = s.cf := rfl
@[simp] theorem link_ae (v : Counter) : (link s v).ae = s.ae := rfl
@[simp] theorem link_tm (v : Counter) : (link s v).tm = s.tm := rfl
@[simp] theorem link_ef (v : Counter) : (link s v).ef = s.ef := rfl
@[simp] theorem link_ifBit (v : Counter) : (link s v).ifBit = s.ifBit := rfl
@[simp] theorem link_pacc (v : Counter) : (link s v).pacc = s.pacc := rfl
@[simp] theorem link_mem (v : Counter) : (link s v).mem = s.mem := rfl
@[simp] theorem link_lines (v : Counter) : (link s v).lines = s.lines := rfl
@[simp] theorem link_lineScript (v : Counter) : (link s v).lineScript = s.lineScript := rfl
@[simp] theorem link_portIn (v : Counter) : (link s v).portIn = s.portIn := rfl
@[simp] theorem link_io (v : Counter) : (link s v).io = s.io := rfl
@[simp] theorem link_paccNow (v : Counter) : (link s v).paccNow = s.paccNow := rfl
@[simp] theorem link_stale (v : Counter) : (link s v).stale = s.stale := rfl
@[simp] theorem link_draws (v : Counter) : (link s v).draws = s.draws := rfl
@[simp] theorem link_cycles (v : Counter) : (link s v).cycles = s.cycles := rfl

@[simp] theorem applyBMod_cfg (d : BMod) (b : Byte) : (applyBMod d b s).cfg = s.cfg := rfl
@[simp] theorem applyBMod_a (d : BMod) (b : Byte) : (applyBMod d b s).a = s.a := rfl
@[simp] theorem applyBMod_b (d : BMod) (b : Byte) : (applyBMod d b s).b = (match d with | .own => s.b | .keep => b | .inc => b + 1) := rfl
@[simp] theorem applyBMod_c (d : BMod) (b : Byte) : (applyBMod d b s).c = s.c := rfl
@[simp] theorem applyBMod_pc (d : BMod) (b : Byte) : (applyBMod d b s).pc = s.pc := rfl
@[simp] theorem applyBMod_mc (d : BMod) (b : Byte) : (applyBMod d b s).mc = s.mc := rfl
@[simp] theorem applyBMod_ic (d : BMod) (b : Byte) : (applyBMod d b s).ic = s.ic := rfl
@[simp] theorem applyBMod_jra (d : BMod) (b : Byte) : (applyBMod d b s).jra = s.jra := rfl
@[simp] theorem applyBMod_zf (d : BMod) (b : Byte) : (applyBMod d b s).zf = s.zf := rfl
@[simp] theorem applyBMod_mf (d : BMod) (b : Byte) : (applyBMod d b s).mf = s.mf := rfl
@[simp] theorem applyBMod_uf (d : BMod) (b : Byte) : (applyBMod d b s).uf = s.uf := rfl
@[simp] theorem applyBMod_ofBits (d : BMod) (b : Byte) : (applyBMod d b s).ofBits = s.ofBits := rfl
@[simp] theorem applyBMod_cf (d : BMod) (b : Byte) : (applyBMod d b s).cf = s.cf := rfl
@[simp] theorem applyBMod_ae (d : BMod) (b : Byte) : (applyBMod d b s).ae = s.ae := rfl
@[simp] theorem applyBMod_tm (d : BMod) (b : Byte) : (applyBMod d b s).tm = s.tm := rfl
@[simp] theorem applyBMod_ef (d : BMod) (b : Byte) : (applyBMod d b s).ef = s.ef := rfl
@[simp] theorem applyBMod_ifBit (d : BMod) (b : Byte) : (applyBMod d b s).ifBit = s.ifBit := rfl
@[simp] theorem applyBMod_pacc (d : BMod) (b : Byte) : (applyBMod d b s).pacc = s.pacc := rfl
@[simp] theorem applyBMod_mem (d : BMod) (b : Byte) : (applyBMod d b s).mem = s.mem := rfl
@[simp] theorem applyBMod_lines (d : BMod) (b : Byte) : (applyBMod d b s).lines = s.lines := rfl
@[simp] theorem applyBMod_lineScript (d : BMod) (b : Byte) : (applyBMod d b s).lineScript = s.lineScript := rfl
@[simp] theorem applyBMod_portIn (d : BMod) (b : Byte) : (applyBMod d b s).portIn = s.portIn := rfl
@[simp] theorem applyBMod_io (d : BMod) (b : Byte) : (applyBMod d b s).io = s.io := rfl
@[simp] theorem applyBMod_paccNow (d : BMod) (b : Byte) : (applyBMod d b s).paccNow = s.paccNow := rfl
@[simp] theorem applyBMod_stale (d : BMod) (b : Byte) : (applyBMod d b s).stale = s.stale := rfl
@[simp] theorem applyBMod_draws (d : BMod) (b : Byte) : (applyBMod d b s).draws = s.draws := rfl
@[simp] theorem applyBMod_cycles (d : BMod) (b : Byte) : (applyBMod d b s).cycles = s.cycles := rfl

@[simp] theorem beginInstr_cfg : (beginInstr s).cfg = s.cfg := rfl
@[simp] theorem beginInstr_a : (beginInstr s).a = s.a := rfl
@[simp] theorem beginInstr_b : (beginInstr s).b = s.b := rfl
@[simp] theorem beginInstr_c : (beginInstr s).c = s.c := rfl
@[simp] theorem beginInstr_pc : (beginInstr s).pc = if !s.ifBit && !s.mf then nextAddr s else s.pc := rfl
@[simp] theorem beginInstr_mc : (beginInstr s).mc = if !s.ifBit && s.mf then nextAddr s else s.mc := rfl
@[simp] theorem beginInstr_ic : (beginInstr s).ic = if s.ifBit then nextAddr s else s.ic := rfl
@[simp] theorem beginInstr_jra : (beginInstr s).jra = s.jra := rfl
@[simp] theorem beginInstr_zf : (beginInstr s).zf = s.zf := rfl
@[simp] theorem beginInstr_mf : (beginInstr s).mf = s.mf := rfl
@[simp] theorem beginInstr_uf : (beginInstr s).uf = s.uf := rfl
@[simp] theorem beginInstr_ofBits : (beginInstr s).ofBits = s.ofBits := rfl
@[simp] theorem beginInstr_cf : (beginInstr s).cf = s.cf := rfl
@[simp] theorem beginInstr_ae : (beginInstr s).ae = s.ae := rfl
@[simp] theorem beginInstr_tm : (beginInstr s).tm = s.tm := rfl
@[simp] theorem beginInstr_ef : (beginInstr s).ef = s.ef := rfl
@[simp] theorem beginInstr_ifBit : (beginInstr s).ifBit = s.ifBit := rfl
@[simp] theorem beginInstr_pacc : (beginInstr s).pacc = false := rfl
@[simp] theorem beginInstr_mem : (beginInstr s).mem = s.mem := rfl
@[simp] theorem beginInstr_lines : (beginInstr s).lines = s.lines := rfl
@[simp] theorem beginInstr_lineScript : (beginInstr s).lineScript = s.lineScript := rfl
@[simp] theorem beginInstr_portIn : (beginInstr s).portIn = s.portIn := rfl
@[simp] theorem beginInstr_io : (beginInstr s).io = s.io := rfl
@[simp] theorem beginInstr_paccNow : (beginInstr s).paccNow = s.pacc := rfl
@[simp] theorem beginInstr_stale : (beginInstr s).stale = none := rfl
@[simp] theorem beginInstr_draws : (beginInstr s).draws = s.draws := rfl
@[simp] theorem beginInstr_cycles : (beginInstr s).cycles = s.cycles := rfl

@[simp] theorem endStep_cfg : (endStep s).cfg = s.cfg := rfl
@[simp] theorem endStep_a : (endStep s).a = s.a := rfl
@[simp] theorem endStep_b : (endStep s).b = s.b := rfl
@[simp] theorem endStep_c : (endStep s).c = s.c := rfl
@[simp] theorem endStep_pc : (endStep s).pc = s.pc := rfl
@[simp] theorem endStep_mc : (endStep s).mc = s.mc := rfl
@[simp] theorem endStep_ic : (endStep s).ic = s.ic := rfl
@[simp] theorem endStep_jra : (endStep s).jra = jraAfter s := rfl
@[simp] theorem endStep_zf : (endStep s).zf = s.zf := rfl
@[simp] theorem endStep_mf : (endStep s).mf = s.mf := rfl
@[simp] theorem endStep_uf : (endStep s).uf = s.uf := rfl
@[simp] theorem endStep_ofBits : (endStep s).ofBits = s.ofBits := rfl
@[simp] theorem endStep_cf : (endStep s).cf = s.cf := rfl
@[simp] theorem endStep_ae : (endStep s).ae = s.ae := rfl
@[simp] theorem endStep_tm : (endStep s).tm = s.tm := rfl
@[simp] theorem endStep_ef : (endStep s).ef = s.ef := rfl
@[simp] theorem endStep_ifBit : (endStep s).ifBit = s.ifBit := rfl
@[simp] theorem endStep_pacc : (endStep s).pacc = s.pacc := rfl
@[simp] theorem endStep_mem : (endStep s).mem = s.mem := rfl
@[simp] theorem endStep_lines : (endStep s).lines = s.lineScript.headD s.lines := rfl
@[simp] theorem endStep_lineScript : (endStep s).lineScript = s.lineScript.tail := rfl
@[simp] theorem endStep_portIn : (endStep s).portIn = s.portIn := rfl
@[simp] theorem endStep_io : (endStep s).io = s.io := rfl
@[simp] theorem endStep_paccNow : (endStep s).paccNow = false := rfl
@[simp] theorem endStep_stale : (endStep s).stale = s.stale := rfl
@[simp] theorem endStep_draws : (endStep s).draws = s.draws := rfl
@[simp] theorem endStep_cycles : (endStep s).cycles = s.cycles + 4 := rfl

end Sys2Proof.Machine
end

