-- ==== Sys2Proof/Laws/Ops.lean ====
section
/-!
SUPPORT. For each shared operation, once, everything it can do.
-/

namespace Sys2Proof.Machine

open Sys2Proof

variable {α β : Type} {s t : State}

@[simp] theorem onNext_next (x : α) (k : α → Host.Outcome β Fault Refusal) : onNext (.next x) k = k x := rfl

@[simp] theorem onNext_fault (e : Fault) (k : α → Host.Outcome β Fault Refusal) : onNext (.fault e) k = .fault e := rfl

@[simp] theorem onNext_refused (e : Refusal) (k : α → Host.Outcome β Fault Refusal) :
    onNext (.refused e) k = .refused e := rfl

/-- An operation followed by another completes where both do. -/
theorem onNext_eq_next {r : Host.Outcome α Fault Refusal} {k : α → Host.Outcome β Fault Refusal} {y : β} :
    onNext r k = .next y ↔ ∃ x, r = .next x ∧ k x = .next y := by
  cases r <;> simp

/-! ### Counters -/

@[simp] theorem ctr_setCtr (v : Counter) : ctr (setCtr s v) = v := by
  cases hi : s.ifBit <;> cases hm : s.mf <;> simp [ctr, hi, hm]

@[simp] theorem ctr_beginInstr : ctr (beginInstr s) = nextAddr s := by
  cases hi : s.ifBit <;> cases hm : s.mf <;> simp [ctr, hi, hm]

theorem wrapCtr_toNat (cfg : Config) (n : Nat) (h : cfg.pcw ≤ 17) : (wrapCtr cfg n).toNat = n % 2 ^ cfg.pcw := by
  have hp : 2 ^ cfg.pcw ≤ 2 ^ 17 := Nat.pow_le_pow_right (by decide) h
  have hl : n % 2 ^ cfg.pcw < 2 ^ cfg.pcw := Nat.mod_lt _ (Nat.two_pow_pos _)
  simpa [wrapCtr] using Nat.mod_eq_of_lt (Nat.lt_of_lt_of_le hl hp)

/-- A reduced value is within the counter's width, and even where the value is. -/
theorem wrapCtr_ok {cfg : Config} (h : ConfigOk cfg) {n : Nat} (hn : n % 2 = 0) : CounterOk cfg (wrapCtr cfg n) := by
  rw [CounterOk, wrapCtr_toNat cfg n h.2.1]
  refine ⟨Nat.mod_lt _ (Nat.two_pow_pos _), ?_⟩
  have hd : 2 ∣ 2 ^ cfg.pcw := dvd_pow_self 2 (by have := h.1; omega)
  rw [Nat.mod_mod_of_dvd n hd, hn]

/-! ### Data memory -/

theorem readPhys_eq (p : Nat) :
    readPhys s p = if p < s.cfg.memBytes then .next (Memory.read s.mem p) else .refused (.absentMemory p) := rfl

/-- A data read completes where memory is installed, with the byte there. -/
theorem dataRead_eq_next {d : DataAddr} {v : Byte} : dataRead s d = .next v ↔ Installed s d ∧ v = dataByte s d := by
  unfold dataRead readPhys dataByte
  split <;> simp_all [eq_comm]

theorem dataRead_installed {d : DataAddr} (h : Installed s d) : dataRead s d = .next (dataByte s d) :=
  dataRead_eq_next.2 ⟨h, rfl⟩

/-- A data write does nothing when it is suppressed, and stores the byte in installed memory otherwise. -/
theorem dataWrite_eq_next {d : DataAddr} {v : Byte} :
    dataWrite s d v = .next t ↔
      (writeSuppressed s = true ∧ t = s) ∨
        (writeSuppressed s = false ∧ Installed s d ∧ t = storeByte s (physData s d) v) := by
  unfold dataWrite
  cases hw : writeSuppressed s
  · by_cases hi : physData s d < s.cfg.memBytes <;> simp [hi, eq_comm]
  · simp [eq_comm]

/-- A checked read violates and delivers a free byte, or delivers the byte there. -/
theorem checkedRead_eq_next {d : DataAddr} {v : Byte} :
    checkedRead s d = .next (v, t) ↔
      (violates s d = true ∧ v = freeByteNow s ∧ t = afterDraw (raiseViolation s)) ∨
        (violates s d = false ∧ Installed s d ∧ v = dataByte s d ∧ t = s) := by
  unfold checkedRead
  cases hv : violates s d
  · simp only [Bool.false_eq_true, if_false, onNext_eq_next, dataRead_eq_next]
    constructor
    · rintro ⟨x, ⟨hi, rfl⟩, h⟩
      cases h
      exact .inr ⟨by simp, hi, rfl, rfl⟩
    · rintro (⟨h, -⟩ | ⟨-, hi, rfl, rfl⟩)
      · cases h
      · exact ⟨_, ⟨hi, rfl⟩, rfl⟩
  · simp [eq_comm]

/-- A checked write violates and stores nothing, or is a data write. -/
theorem checkedWrite_eq_next {d : DataAddr} {v : Byte} :
    checkedWrite s d v = .next t ↔
      (violates s d = true ∧ t = raiseViolation s) ∨ (violates s d = false ∧ dataWrite s d v = .next t) := by
  unfold checkedWrite
  cases hv : violates s d <;> simp [eq_comm]

/-- An operand read: the byte of the operand, or a violation and a free byte. -/
theorem readOperand_eq_next {o : Operand} {v : Byte} :
    readOperand s o = .next (v, t) ↔
      (operandViolates s o = true ∧ v = freeByteNow s ∧ t = afterDraw (raiseViolation s)) ∨
        (Readable s o ∧ v = operandByte s o ∧ t = s) := by
  cases o with
  | direct m =>
    simp only [readOperand, operandViolates, onNext_eq_next, dataRead_eq_next, Readable, Bool.false_eq_true, false_and,
      false_or, true_and]
    constructor
    · rintro ⟨x, ⟨hi, rfl⟩, h⟩
      cases h
      exact ⟨hi, rfl, rfl⟩
    · rintro ⟨hi, rfl, rfl⟩
      exact ⟨_, ⟨hi, rfl⟩, rfl⟩
  | ptr => simp [readOperand, operandViolates, checkedRead_eq_next, operandByte, operandAddr, dataByte, and_assoc]
  | page m => simp [readOperand, operandViolates, checkedRead_eq_next, operandByte, operandAddr, dataByte, and_assoc]

/-- An operand write: a violation, a suppressed write, or the store of the byte at the operand's address. -/
theorem writeOperand_eq_next {o : Operand} {v : Byte} :
    writeOperand s o v = .next t ↔
      (operandViolates s o = true ∧ t = raiseViolation s) ∨
        (operandViolates s o = false ∧ writeSuppressed s = true ∧ t = s) ∨
          (Writable s o ∧ t = storeByte s (operandAddr s o) v) := by
  cases o with
  | direct m =>
    simp only [writeOperand, operandViolates, dataWrite_eq_next, Writable, Readable, operandAddr, ea, Bool.false_eq_true,
      false_and, false_or, true_and]
    tauto
  | ptr =>
    simp only [writeOperand, operandViolates, checkedWrite_eq_next, dataWrite_eq_next, Writable, Readable, operandAddr]
    tauto
  | page m =>
    simp only [writeOperand, operandViolates, checkedWrite_eq_next, dataWrite_eq_next, Writable, Readable, operandAddr]
    tauto

theorem readOperand_readable {o : Operand} (h : Readable s o) : readOperand s o = .next (operandByte s o, s) :=
  readOperand_eq_next.2 (.inr ⟨h, rfl, rfl⟩)

theorem writeOperand_writable {o : Operand} (h : Writable s o) (v : Byte) :
    writeOperand s o v = .next (storeByte s (operandAddr s o) v) :=
  writeOperand_eq_next.2 (.inr (.inr ⟨h, rfl⟩))

theorem checkedWrite_reaches {d : DataAddr} (h : StoreReaches s d) (v : Byte) :
    checkedWrite s d v = .next (storeByte s (physData s d) v) :=
  checkedWrite_eq_next.2 (.inr ⟨h.1, dataWrite_eq_next.2 (.inr ⟨h.2.2, h.2.1, rfl⟩)⟩)

/-- A store writes its byte and no other. -/
theorem storeByte_storesOnly (p : Nat) (v : Byte) : StoresOnly s (storeByte s p v) p v :=
  ⟨read_write_same _ _ _, fun _ hq => read_write_other _ _ hq⟩

/-! ### Absent memory (R63) -/

theorem dataRead_absent {d : DataAddr} (h : s.cfg.memBytes ≤ physData s d) :
    dataRead s d = .refused (.absentMemory (physData s d)) := by
  simp [dataRead, readPhys, Nat.not_lt.2 h]

theorem dataWrite_absent {d : DataAddr} (hw : writeSuppressed s = false) (h : s.cfg.memBytes ≤ physData s d) (v : Byte) :
    dataWrite s d v = .refused (.absentMemory (physData s d)) := by
  simp [dataWrite, hw, Nat.not_lt.2 h]

theorem checkedWrite_absent {d : DataAddr} (hw : writeSuppressed s = false) (hv : violates s d = false)
    (h : s.cfg.memBytes ≤ physData s d) (v : Byte) : checkedWrite s d v = .refused (.absentMemory (physData s d)) := by
  simp [checkedWrite, hv, dataWrite_absent hw h]

theorem readOperand_absent {o : Operand} (hv : operandViolates s o = false) (h : s.cfg.memBytes ≤ operandAddr s o) :
    readOperand s o = .refused (.absentMemory (operandAddr s o)) := by
  have hr : dataRead s (ea s o) = .refused (.absentMemory (operandAddr s o)) := dataRead_absent h
  cases o with
  | direct m =>
    show onNext (dataRead s (ea s (.direct m))) _ = _
    rw [hr]
    rfl
  | ptr => simp only [operandViolates] at hv; simp [readOperand, checkedRead, hv, hr]
  | page m => simp only [operandViolates] at hv; simp [readOperand, checkedRead, hv, hr]

theorem writeOperand_absent {o : Operand} (hw : writeSuppressed s = false) (hv : operandViolates s o = false)
    (h : s.cfg.memBytes ≤ operandAddr s o) (v : Byte) : writeOperand s o v = .refused (.absentMemory (operandAddr s o)) := by
  cases o with
  | direct m => exact dataWrite_absent hw h v
  | ptr => exact checkedWrite_absent hw hv h v
  | page m => exact checkedWrite_absent hw hv h v

/-! ### Where an address lies -/

/-- Two data addresses share no byte of physical memory. -/
theorem physData_injective {d e : DataAddr} (h : physData s d = physData s e) : d = e := by
  apply BitVec.eq_of_toNat_eq
  simp only [physData] at h
  split at h
  · exact h
  · split at h <;> omega

theorem windowAddr_toNat (m : BitVec 7) : (windowAddr s m).toNat = (ofEff s).toNat * 128 + m.toNat := by
  have h1 := (ofEff s).isLt
  have h2 := m.isLt
  simp only [windowAddr, BitVec.toNat_ofNat]
  omega

/-- The direct form reaches the first 512 data addresses only (R69). -/
theorem windowAddr_lt (m : BitVec 7) : (windowAddr s m).toNat < 512 := by
  have h1 := (ofEff s).isLt
  have h2 := m.isLt
  rw [windowAddr_toNat]
  omega

/-- The memory after reset has the canonical form. -/
theorem reset_mem_wf : Memory.wf State.reset.mem = true := rfl

/-! ### Instruction fetch -/

/-- A byte fetch with no earlier store to see is a read of installed program memory. -/
theorem fetchByte_settled {p : Nat} (h : s.stale = none) (hp : p < s.cfg.memBytes) :
    fetchByte s p = .next (Memory.read s.mem p, s) := by
  simp [fetchByte, staleByte, h, hp]

theorem fetchByte_absent {p : Nat} (hp : s.cfg.memBytes ≤ p) : fetchByte s p = .refused (.absentMemory p) := by
  simp [fetchByte, Nat.not_lt.2 hp]

/-- A byte fetch delivers a byte where memory is installed, and changes no more than the count of free values. -/
theorem fetchByte_eq_next {p : Nat} {v : Byte} (h : fetchByte s p = .next (v, t)) :
    p < s.cfg.memBytes ∧ (t = s ∨ t = afterDraw s) := by
  unfold fetchByte at h
  split at h
  · rename_i hp
    split at h <;> cases h
    · exact ⟨hp, .inr rfl⟩
    · exact ⟨hp, .inl rfl⟩
  · cases h

/-! ### Dispatch -/

/-- Outside the hard macro end, the instruction an end word runs has the meaning `exec` gives it. -/
theorem execOrdinary_eq_exec {i : Instr} (h : isMacroEnd i = false) : execOrdinary i s = exec i s := by
  cases i <;> first | rfl | cases h

end Sys2Proof.Machine
end

