-- ==== Sys2Proof/Laws/Values.lean ====
section
/-!
SUPPORT. The values of the shared computations, in the words the statements use: sums, differences, shifts, products, halves of a
counter, the flag byte, branch targets.
-/

namespace Sys2Proof.Machine

open Sys2Proof

/-! ### Flags -/

theorem isZero_eq (r : Byte) : isZero r = decide (r = 0) := by simp [isZero, BEq.beq]

theorem carryByte_toNat (s : State) : (carryByte s).toNat = bit s.cf := by
  cases h : s.cf <;> simp [carryByte, bit, h]

theorem flagByte_eq (s : State) :
    flagByte s = BitVec.ofNat 8 ((if s.cf then 128 else 0) + 8 * s.ofBits.toNat +
      (if s.cfg.userMode && s.uf then 4 else 0) + (if s.mf then 2 else 0) + (if s.zf then 1 else 0)) := by
  simp only [flagByte, inUser]
  generalize (s.cfg.userMode && s.uf) = u
  generalize s.ofBits = w
  cases s.cf <;> cases s.mf <;> cases s.zf <;> cases u <;> revert w <;> decide

theorem offsetField_eq (v : Byte) : v.extractLsb' 3 2 = BitVec.ofNat 2 (v.toNat / 8) := by
  apply BitVec.eq_of_toNat_eq
  simp [BitVec.extractLsb'_toNat, Nat.shiftRight_eq_div_pow]

/-! ### Shifts -/

theorem shiftLeft_zero (v : Byte) : shiftLeft false v = ⟨v <<< 1, v.getLsbD 7⟩ := by
  simp only [shiftLeft]
  congr 1
  revert v
  decide

theorem shiftRight_zero (v : Byte) : shiftRight false v = ⟨v >>> 1, v.getLsbD 0⟩ := by
  simp only [shiftRight]
  congr 1
  revert v
  decide

theorem shiftLeft_carry (s : State) (v : Byte) : shiftLeft s.cf v = ⟨v <<< 1 ||| carryByte s, v.getLsbD 7⟩ := by
  simp only [shiftLeft, carryByte]
  generalize s.cf = c
  congr 1
  cases c <;> revert v <;> decide

theorem shiftRight_carry (s : State) (v : Byte) :
    shiftRight s.cf v = ⟨v >>> 1 ||| carryByte s <<< 7, v.getLsbD 0⟩ := by
  simp only [shiftRight, carryByte]
  generalize s.cf = c
  congr 1
  cases c <;> revert v <;> decide

/-! ### Sums and differences -/

theorem add8_one (v : Byte) : add8 v 1 false = ⟨v + 1, decide (v = 255)⟩ := by
  simp only [add8, WithCarry.mk.injEq]
  revert v
  decide

theorem add8_zero_carry (s : State) (v : Byte) : add8 v 0 s.cf = ⟨v + carryByte s, s.cf && decide (v = 255)⟩ := by
  simp only [add8, WithCarry.mk.injEq, carryByte]
  generalize s.cf = c
  cases c <;> revert v <;> decide

theorem sub8_one (v : Byte) : sub8 v 1 false = ⟨v - 1, decide (v = 0)⟩ := by
  simp only [sub8, WithCarry.mk.injEq]
  revert v
  decide

theorem sub8_zero_carry (s : State) (v : Byte) : sub8 v 0 s.cf = ⟨v - carryByte s, s.cf && decide (v = 0)⟩ := by
  simp only [sub8, WithCarry.mk.injEq, carryByte]
  generalize s.cf = c
  cases c <;> revert v <;> decide

theorem add8_eq (x y : Byte) : add8 x y false = ⟨x + y, decide (256 ≤ x.toNat + y.toNat)⟩ := by
  simp only [add8, WithCarry.mk.injEq, bit]
  refine ⟨?_, by simp⟩
  apply BitVec.eq_of_toNat_eq
  simp

theorem add8_carry (s : State) (x y : Byte) :
    add8 x y s.cf = ⟨x + y + carryByte s, decide (256 ≤ x.toNat + y.toNat + (carryByte s).toNat)⟩ := by
  simp only [add8, WithCarry.mk.injEq, carryByte_toNat]
  refine ⟨?_, trivial⟩
  apply BitVec.eq_of_toNat_eq
  simp [carryByte_toNat]

/-- The difference of integers, narrowed, is the difference of bytes. -/
theorem ofInt_sub_sub (x y c : Byte) : BitVec.ofInt 8 ((x.toNat : Int) - y.toNat - c.toNat) = x - y - c := by
  have hx := x.isLt
  have hy := y.isLt
  have hc := c.isLt
  apply BitVec.eq_of_toNat_eq
  simp only [BitVec.toNat_ofInt, BitVec.toNat_sub]
  omega

theorem sub8_eq (x y : Byte) : sub8 x y false = ⟨x - y, decide (x.toNat < y.toNat)⟩ := by
  simp only [sub8, WithCarry.mk.injEq, bit]
  exact ⟨by simpa using ofInt_sub_sub x y 0, by simp⟩

theorem sub8_carry (s : State) (x y : Byte) :
    sub8 x y s.cf = ⟨x - y - carryByte s, decide (x.toNat < y.toNat + (carryByte s).toNat)⟩ := by
  simp only [sub8, WithCarry.mk.injEq, ← carryByte_toNat]
  exact ⟨ofInt_sub_sub _ _ _, trivial⟩

/-! ### Products, pairs and counters -/

theorem mulAdd_high (x y m : Byte) :
    (mulAdd x y m).extractLsb' 8 8 = BitVec.ofNat 8 ((x.toNat * y.toNat + m.toNat) / 256) := by
  apply BitVec.eq_of_toNat_eq
  simp [mulAdd, BitVec.extractLsb'_toNat, Nat.shiftRight_eq_div_pow]
  omega

theorem mulAdd_low (x y m : Byte) : (mulAdd x y m).extractLsb' 0 8 = BitVec.ofNat 8 (x.toNat * y.toNat + m.toNat) := by
  apply BitVec.eq_of_toNat_eq
  simp [mulAdd, BitVec.extractLsb'_toNat, Nat.shiftRight_eq_div_pow]

theorem pair_toNat (hi lo : Byte) : (pair hi lo).toNat = hi.toNat * 256 + lo.toNat := by
  simp only [pair, BitVec.toNat_append]
  rw [Nat.shiftLeft_eq, Nat.mul_comm, ← Nat.two_pow_add_eq_or_of_lt lo.isLt]

theorem index_high (n : Nat) : (BitVec.ofNat 16 (n / 2)).extractLsb' 8 8 = BitVec.ofNat 8 (n / 512) := by
  apply BitVec.eq_of_toNat_eq
  simp [BitVec.extractLsb'_toNat, Nat.shiftRight_eq_div_pow]
  omega

theorem index_low (n : Nat) : (BitVec.ofNat 16 (n / 2)).extractLsb' 0 8 = BitVec.ofNat 8 (n / 2) := by
  apply BitVec.eq_of_toNat_eq
  simp [BitVec.extractLsb'_toNat, Nat.shiftRight_eq_div_pow]

/-! ### Branch targets -/

theorem targetAB_eq (s : State) : targetAB s = indexAddr s (s.a.toNat * 256 + s.b.toNat) := by
  simp [targetAB, indexTarget, indexAddr, wrapCtr, pair_toNat]

theorem relativeTarget_eq (s : State) (k : Int) : relativeTarget s k = nxtPlus s (2 * k) := by
  simp only [relativeTarget, nxtPlus, wrapCtr, Int.mul_comm k 2]
  set q : Int := ((ctr s).toNat + 2 * k) % ((2 ^ s.cfg.pcw : Nat) : Int) with hq
  have h1 : 0 ≤ q := Int.emod_nonneg _ (by positivity)
  have h2 : q < ((2 ^ s.cfg.pcw : Nat) : Int) := Int.emod_lt_of_pos _ (by positivity)
  obtain ⟨n, hn⟩ := Int.eq_ofNat_of_zero_le h1
  rw [hn] at h2 ⊢
  have h3 : n < 2 ^ s.cfg.pcw := by exact_mod_cast h2
  simp [Nat.mod_eq_of_lt h3]

theorem link_setCtr_eq (s : State) (v : Counter) : link (setCtr s v) (ctr s) = linkedTo s v := by
  simp [link, setAB, linkedTo, ctrIndex, index_high, index_low]

theorem targetM_ok {s : State} (h : ConfigOk s.cfg) (m : BitVec 7) : CounterOk s.cfg (targetM s m) :=
  wrapCtr_ok h (by omega)

theorem targetAB_ok {s : State} (h : ConfigOk s.cfg) : CounterOk s.cfg (targetAB s) := wrapCtr_ok h (by omega)

theorem targetMB_ok {s : State} (h : ConfigOk s.cfg) (m : BitVec 7) : CounterOk s.cfg (targetMB s m) :=
  wrapCtr_ok h (by omega)

/-- A relative target is within the counter's width, and even where the active counter is. -/
theorem relativeTarget_ok {s : State} {k : Int} (h : ConfigOk s.cfg) (hc : CounterOk s.cfg (ctr s)) :
    CounterOk s.cfg (relativeTarget s k) := by
  refine wrapCtr_ok h ?_
  have h1 : ((2 ^ s.cfg.pcw : Nat) : Int) = 2 * ((2 ^ (s.cfg.pcw - 1) : Nat) : Int) := by
    have hw := h.1
    obtain ⟨n, hn⟩ : ∃ n, s.cfg.pcw = n + 1 := ⟨s.cfg.pcw - 1, by omega⟩
    rw [hn, Nat.add_sub_cancel, Nat.pow_succ]
    push_cast
    ring
  have h2 := hc.2
  have h3 : 0 ≤ (((ctr s).toNat : Int) + k * 2) % ((2 ^ s.cfg.pcw : Nat) : Int) := Int.emod_nonneg _ (by positivity)
  have h4 : (((ctr s).toNat : Int) + k * 2) % ((2 ^ s.cfg.pcw : Nat) : Int) % 2 = 0 := by
    rw [Int.emod_emod_of_dvd _ (by rw [h1]; exact Dvd.intro _ rfl)]
    omega
  omega

end Sys2Proof.Machine
end

