-- ==== Sys2Proof/Laws/Effects.lean ====
section
/-!
SUPPORT. What each shared operation over an operand form leaves, once and completely: if it answers `next t`, then `t` is one of the
listed states; and what reads and writes in general may change.
-/

namespace Sys2Proof.Machine

open Sys2Proof

variable {s t u : State} {o : Operand}

/-! ### One read and one write of the same byte -/

theorem operandViolates_draw : operandViolates (afterDraw (raiseViolation s)) o = operandViolates s o := by
  cases o <;> rfl

/-- A read, a write of the same byte, and an update: after a violation a free byte and no store; with the writes suppressed no store;
otherwise the store. -/
theorem modify_eq_next {k : Byte → Byte} {g : Byte → State → State} :
    (onNext (readOperand s o) fun r => onNext (writeOperand r.2 o (k r.1)) fun w => .next (g r.1 w)) = .next t ↔
      (operandViolates s o = true ∧ t = g (freeByteNow s) (afterDraw (raiseViolation s))) ∨
        (Readable s o ∧ writeSuppressed s = true ∧ t = g (operandByte s o) s) ∨
          (Writable s o ∧ t = g (operandByte s o) (storeByte s (operandAddr s o) (k (operandByte s o)))) := by
  by_cases hv : operandViolates s o = true
  · have hr : ¬Readable s o := fun h => by rw [h.1] at hv; cases hv
    have hw : ¬Writable s o := fun h => hr h.1
    have h1 : readOperand s o = .next (freeByteNow s, afterDraw (raiseViolation s)) :=
      readOperand_eq_next.2 (.inl ⟨hv, rfl, rfl⟩)
    have h2 : writeOperand (afterDraw (raiseViolation s)) o (k (freeByteNow s)) = .next (afterDraw (raiseViolation s)) :=
      writeOperand_eq_next.2 (.inl ⟨operandViolates_draw.trans hv, rfl⟩)
    simp only [h1, h2, onNext_next, hv, hr, hw, false_and, or_false, true_and, Host.Outcome.next.injEq]
    exact eq_comm
  · have hv' : operandViolates s o = false := by simpa using hv
    simp only [onNext_eq_next, Prod.exists, readOperand_eq_next, hv', Bool.false_eq_true, false_and, false_or]
    constructor
    · rintro ⟨v, w, ⟨hr, rfl, rfl⟩, x, hx, he⟩
      cases he
      rcases writeOperand_eq_next.1 hx with ⟨h, -⟩ | ⟨-, hs, rfl⟩ | ⟨hw, rfl⟩
      · exact absurd h hv
      · exact .inl ⟨hr, hs, rfl⟩
      · exact .inr ⟨hw, rfl⟩
    · rintro (⟨hr, hs, rfl⟩ | ⟨hw, rfl⟩)
      · exact ⟨_, _, ⟨hr, rfl, rfl⟩, _, writeOperand_eq_next.2 (.inr (.inl ⟨hv', hs, rfl⟩)), rfl⟩
      · exact ⟨_, _, ⟨hw.1, rfl, rfl⟩, _, writeOperand_writable hw _, rfl⟩

theorem shiftMemory_eq_next {f : Byte → WithCarry} :
    shiftMemory f o s = .next t ↔
      (operandViolates s o = true ∧ t = setCarry (afterDraw (raiseViolation s)) (f (freeByteNow s))) ∨
        (Readable s o ∧ writeSuppressed s = true ∧ t = setCarry s (f (operandByte s o))) ∨
          (Writable s o ∧
            t = setCarry (storeByte s (operandAddr s o) (f (operandByte s o)).result) (f (operandByte s o))) :=
  modify_eq_next (k := fun v => (f v).result) (g := fun v w => setCarry w (f v))

theorem shiftAtAB_eq_shiftMemory (f : Byte → WithCarry) (s : State) : shiftAtAB f s = shiftMemory f .ptr s := rfl

theorem logicMemory_eq_next {f : Byte → Byte → Byte} :
    logicMemory f o s = .next t ↔
      (operandViolates s o = true ∧
        t = setZero (afterDraw (raiseViolation s)) (f (freeByteNow s) (registerOperand s o))) ∨
        (Readable s o ∧ writeSuppressed s = true ∧ t = setZero s (f (operandByte s o) (registerOperand s o))) ∨
          (Writable s o ∧
            t = setZero (storeByte s (operandAddr s o) (f (operandByte s o) (registerOperand s o)))
              (f (operandByte s o) (registerOperand s o))) :=
  modify_eq_next (k := fun v => f v (registerOperand s o)) (g := fun v w => setZero w (f v (registerOperand s o)))

theorem arithMemory_eq_next {f : Byte → WithCarry} :
    arithMemory f o s = .next t ↔
      (operandViolates s o = true ∧ t = setCarryZero (afterDraw (raiseViolation s)) (f (freeByteNow s))) ∨
        (Readable s o ∧ writeSuppressed s = true ∧ t = setCarryZero s (f (operandByte s o))) ∨
          (Writable s o ∧
            t = setCarryZero (storeByte s (operandAddr s o) (f (operandByte s o)).result) (f (operandByte s o))) :=
  modify_eq_next (k := fun v => (f v).result) (g := fun v w => setCarryZero w (f v))

theorem decrementKeepCarry_eq_next :
    decrementKeepCarry o s = .next t ↔
      (operandViolates s o = true ∧
        t = setZero (afterDraw (raiseViolation s)) (sub8 (freeByteNow s) 1 false).result) ∨
        (Readable s o ∧ writeSuppressed s = true ∧ t = setZero s (sub8 (operandByte s o) 1 false).result) ∨
          (Writable s o ∧
            t = setZero (storeByte s (operandAddr s o) (sub8 (operandByte s o) 1 false).result)
              (sub8 (operandByte s o) 1 false).result) :=
  modify_eq_next (k := fun v => (sub8 v 1 false).result) (g := fun v w => setZero w (sub8 v 1 false).result)

theorem arithExchange_eq_next {f : Byte → WithCarry} :
    arithExchange f o s = .next t ↔
      (operandViolates s o = true ∧
        t = { setCarryZero (afterDraw (raiseViolation s)) (f (freeByteNow s)) with a := freeByteNow s, b := s.a }) ∨
        (Readable s o ∧ writeSuppressed s = true ∧
          t = { setCarryZero s (f (operandByte s o)) with a := operandByte s o, b := s.a }) ∨
          (Writable s o ∧
            t = { setCarryZero (storeByte s (operandAddr s o) (f (operandByte s o)).result) (f (operandByte s o)) with
                  a := operandByte s o, b := s.a }) :=
  modify_eq_next (k := fun v => (f v).result) (g := fun v w => { setCarryZero w (f v) with a := v, b := s.a })

/-! ### One read -/

/-- A read and an update: after a violation a free byte, otherwise the byte there. -/
theorem readThen_eq_next {g : Byte → State → State} :
    (onNext (readOperand s o) fun r => .next (g r.1 r.2)) = .next t ↔
      (operandViolates s o = true ∧ t = g (freeByteNow s) (afterDraw (raiseViolation s))) ∨
        (Readable s o ∧ t = g (operandByte s o) s) := by
  simp only [onNext_eq_next, Prod.exists, readOperand_eq_next, Host.Outcome.next.injEq]
  constructor
  · rintro ⟨v, w, ⟨h, rfl, rfl⟩ | ⟨h, rfl, rfl⟩, rfl⟩
    · exact .inl ⟨h, rfl⟩
    · exact .inr ⟨h, rfl⟩
  · rintro (⟨h, rfl⟩ | ⟨h, rfl⟩)
    · exact ⟨_, _, .inl ⟨h, rfl, rfl⟩, rfl⟩
    · exact ⟨_, _, .inr ⟨h, rfl, rfl⟩, rfl⟩

theorem readSource_memory (o : Operand) : readSource s (.memory o) = readOperand s o := rfl

theorem readSource_regC : readSource s .regC = .next (s.c, s) := rfl

/-! ### What a read and a write may change -/

/-- The least a violation needs: user mode, entered. -/
theorem user_of_violates {d : DataAddr} (h : violates s d = true) : s.cfg.userMode = true ∧ s.uf = true := by
  simp [violates, inUser] at h
  exact h.1

theorem user_of_operandViolates (h : operandViolates s o = true) : s.cfg.userMode = true ∧ s.uf = true := by
  cases o with
  | direct m => cases h
  | ptr => exact user_of_violates h
  | page m => exact user_of_violates h

/-- A store to `d` misses the protected bytes: user mode cannot write the data addresses from 512 up to PROT_LIMIT (R71). -/
def StoreAllowed (s : State) (d : DataAddr) : Prop :=
  s.cfg.userMode = true → s.uf = true → d.toNat < 512 ∨ s.cfg.protLimit ≤ d.toNat

theorem storeAllowed_window (m : BitVec 7) : StoreAllowed s (windowAddr s m) := fun _ _ => .inl (windowAddr_lt m)

theorem storeAllowed_addrC : StoreAllowed s (addrC s) := fun _ _ => by
  have h := s.c.isLt
  simp only [addrC, pair_toNat]
  simp
  omega

theorem storeAllowed_of_not_violates {d : DataAddr} (h : violates s d = false) : StoreAllowed s d := fun hm hu => by
  simp [violates, inUser, hm, hu] at h
  exact .inr h

/-- `t` is `s` but for AE, which only a violation in user mode sets, the count of free values, and installed memory that stays
canonical, that a suppressed write leaves alone, and whose protected bytes user mode leaves alone. -/
def AccessOnly (s t : State) : Prop :=
  ∃ mem stale ae draws,
    t = { s with mem := mem, stale := stale, ae := ae, draws := draws } ∧
      (ae ≠ s.ae → ae = true ∧ s.cfg.userMode = true ∧ s.uf = true) ∧
        (Memory.wf s.mem = true → Memory.wf mem = true) ∧
          (Memory.below s.cfg.memBytes s.mem = true → Memory.below s.cfg.memBytes mem = true) ∧
            (writeSuppressed s = true → mem = s.mem) ∧
              (s.cfg.userMode = true → s.uf = true → ∀ d : DataAddr, 512 ≤ d.toNat → d.toNat < s.cfg.protLimit →
                Memory.read mem (physData s d) = Memory.read s.mem (physData s d))

theorem AccessOnly.refl (s : State) : AccessOnly s s :=
  ⟨_, _, _, _, rfl, fun h => absurd rfl h, id, id, fun _ => rfl, fun _ _ _ _ _ => rfl⟩

theorem AccessOnly.trans (h : AccessOnly s t) (k : AccessOnly t u) : AccessOnly s u := by
  obtain ⟨m1, s1, a1, d1, rfl, h1, h2, h3, h4, h5⟩ := h
  obtain ⟨m2, s2, a2, d2, rfl, k1, k2, k3, k4, k5⟩ := k
  refine ⟨m2, s2, a2, d2, rfl, ?_, fun x => k2 (h2 x), fun x => k3 (h3 x), fun x => (k4 x).trans (h4 x),
    fun x y d z w => (k5 x y d z w).trans (h5 x y d z w)⟩
  intro x
  by_cases y : a2 = a1
  · rw [y] at x ⊢
    exact h1 x
  · exact k1 y

theorem AccessOnly.of_violation (h : s.cfg.userMode = true ∧ s.uf = true) (n : Nat) :
    AccessOnly s { s with ae := true, draws := n } :=
  ⟨_, _, _, _, rfl, fun _ => ⟨rfl, h⟩, id, id, fun _ => rfl, fun _ _ _ _ _ => rfl⟩

theorem readOperand_accessOnly {v : Byte} (h : readOperand s o = .next (v, t)) : AccessOnly s t ∧ t.mem = s.mem := by
  rcases readOperand_eq_next.1 h with ⟨h1, -, rfl⟩ | ⟨-, -, rfl⟩
  · exact ⟨.of_violation (user_of_operandViolates h1) _, rfl⟩
  · exact ⟨.refl _, rfl⟩

theorem dataWrite_accessOnly {d : DataAddr} {v : Byte} (hd : StoreAllowed s d) (h : dataWrite s d v = .next t) :
    AccessOnly s t := by
  rcases dataWrite_eq_next.1 h with ⟨-, rfl⟩ | ⟨h1, h2, rfl⟩
  · exact .refl _
  · refine ⟨_, _, _, _, rfl, fun h => absurd rfl h, fun h => wf_write _ _ _ h, fun h => below_write _ _ _ h h2,
      fun h => ?_, fun hm hu e h3 h4 => read_write_other _ _ fun he => ?_⟩
    · rw [h1] at h
      cases h
    · cases physData_injective he
      have := hd hm hu
      omega

theorem checkedWrite_accessOnly {d : DataAddr} {v : Byte} (h : checkedWrite s d v = .next t) : AccessOnly s t := by
  rcases checkedWrite_eq_next.1 h with ⟨h1, rfl⟩ | ⟨hv, h⟩
  · exact .of_violation (user_of_violates h1) _
  · exact dataWrite_accessOnly (storeAllowed_of_not_violates hv) h

theorem writeOperand_accessOnly {v : Byte} (h : writeOperand s o v = .next t) : AccessOnly s t := by
  cases o with
  | direct m => exact dataWrite_accessOnly (storeAllowed_window m) h
  | ptr => exact checkedWrite_accessOnly h
  | page m => exact checkedWrite_accessOnly h

/-! ### Branches and loops -/

theorem branchIf_eq_next {cond : Bool} {target : Counter} :
    branchIf cond target s = .next t ↔ t = if cond then setCtr s target else s := by
  simp [branchIf, eq_comm]

theorem linkIf_eq_next {cond : Bool} {target : Counter} :
    linkIf cond target s = .next t ↔ t = if cond then link (setCtr s target) (ctr s) else s := by
  simp [linkIf, eq_comm]

/-- A loop with offset 0 is refused, repeats itself or goes on, as LOOP0_REPEAT says. -/
theorem loopZeroOffset_eq_next {k : Byte} :
    loopZeroOffset k s = .next t ↔
      (s.cfg.loop0Repeat = .repeatSelf ∧ t = loopStep (selfAddr s) k s) ∨
        (s.cfg.loop0Repeat = .fallthrough ∧ t = loopStep (ctr s) k s) := by
  unfold loopZeroOffset
  cases s.cfg.loop0Repeat <;> simp [eq_comm]

theorem loopCompound_eq_next {op : State → Out} {k : Byte} :
    loopCompound op k s = .next t ↔
      s.cfg.loop0Repeat ≠ .refuse ∧ ∃ w, op s = .next w ∧ loopZeroOffset k w = .next t := by
  unfold loopCompound
  split <;> simp_all [onNext_eq_next]

end Sys2Proof.Machine
end

