-- ==== Sys2Proof/Laws/PerInstr.lean ====
section
/-!
SUPPORT. What the encoder puts into the four fields of a word, per instruction: the macro bit and opmsb of its row.
-/

namespace Sys2Proof.Laws

open Sys2Proof

/-- A bit of a word: below 8 it is a bit of `xx`, below 14 one of `op`, then `m` and `o`. -/
theorem getLsbD_instrWord (o m : Bool) (op : BitVec 6) (xx : Byte) (k : Nat) :
    (instrWord o m op xx).getLsbD k =
      if k < 8 then xx.getLsbD k else if k < 14 then op.getLsbD (k - 8) else
        (BitVec.ofBool o ++ BitVec.ofBool m).getLsbD (k - 14) := by
  have h := BitVec.getLsbD_append (x := BitVec.ofBool o ++ BitVec.ofBool m ++ op) (y := xx) (i := k)
  have h2 := BitVec.getLsbD_append (x := BitVec.ofBool o ++ BitVec.ofBool m) (y := op) (i := k - 8)
  refine h.trans ?_
  split
  · rfl
  · refine h2.trans ?_
    by_cases h14 : k < 14
    · rw [if_pos (by omega), if_pos h14]
    · rw [if_neg (by omega), if_neg h14, show k - 8 - 6 = k - 14 by omega]

@[simp] theorem macroOf_instrWord (o m : Bool) (op : BitVec 6) (xx : Byte) : macroOf (instrWord o m op xx) = m := by
  rw [macroOf, getLsbD_instrWord]
  cases o <;> cases m <;> rfl

@[simp] theorem opmsbOf_instrWord (o m : Bool) (op : BitVec 6) (xx : Byte) : opmsbOf (instrWord o m op xx) = o := by
  rw [opmsbOf, getLsbD_instrWord]
  cases o <;> cases m <;> rfl

@[simp] theorem opOf_instrWord (o m : Bool) (op : BitVec 6) (xx : Byte) : opOf (instrWord o m op xx) = op := by
  apply BitVec.eq_of_getLsbD_eq
  intro k hk
  rw [opOf, BitVec.getLsbD_extractLsb', getLsbD_instrWord, if_neg (by omega), if_pos (by omega)]
  simp [hk]

@[simp] theorem xxOf_instrWord (o m : Bool) (op : BitVec 6) (xx : Byte) : xxOf (instrWord o m op xx) = xx := by
  apply BitVec.eq_of_getLsbD_eq
  intro k hk
  rw [xxOf, BitVec.getLsbD_extractLsb', getLsbD_instrWord, if_pos (by omega)]
  simp [hk]

/-- Whether the row has the macro bit. -/
def hasMacroBit (i : Instr) : Bool :=
  match i with
  | .hmacro _ _ => true
  | .macroEnd _ _ _ => true
  | _ => false

/-- Whether the row has opmsb. -/
def hasOpmsb (i : Instr) : Bool :=
  match i with
  | .ldxAImm _ => true
  | .ldxADirect _ => true
  | .ldxAPtr => true
  | .ldxAPage _ => true
  | .macroEnd opmsb _ _ => opmsb
  | _ => false

/-- The encoded word has the macro bit and the opmsb of the instruction's row (R118). -/
def EncodedFields.Statement (i : Instr) : Prop :=
  macroOf (encode i) = hasMacroBit i ∧ opmsbOf (encode i) = hasOpmsb i

theorem EncodedFields.nop (xx : Byte) : EncodedFields.Statement (.nop xx) :=
  ⟨macroOf_instrWord _ _ _ _, opmsbOf_instrWord _ _ _ _⟩
theorem EncodedFields.mulx : EncodedFields.Statement .mulx :=
  ⟨macroOf_instrWord _ _ _ _, opmsbOf_instrWord _ _ _ _⟩
theorem EncodedFields.ldAFromB : EncodedFields.Statement .ldAFromB :=
  ⟨macroOf_instrWord _ _ _ _, opmsbOf_instrWord _ _ _ _⟩
theorem EncodedFields.ldBFromA : EncodedFields.Statement .ldBFromA :=
  ⟨macroOf_instrWord _ _ _ _, opmsbOf_instrWord _ _ _ _⟩
theorem EncodedFields.swap : EncodedFields.Statement .swap :=
  ⟨macroOf_instrWord _ _ _ _, opmsbOf_instrWord _ _ _ _⟩
theorem EncodedFields.mul : EncodedFields.Statement .mul :=
  ⟨macroOf_instrWord _ _ _ _, opmsbOf_instrWord _ _ _ _⟩
theorem EncodedFields.ldBFromC : EncodedFields.Statement .ldBFromC :=
  ⟨macroOf_instrWord _ _ _ _, opmsbOf_instrWord _ _ _ _⟩
theorem EncodedFields.getpc : EncodedFields.Statement .getpc :=
  ⟨macroOf_instrWord _ _ _ _, opmsbOf_instrWord _ _ _ _⟩
theorem EncodedFields.getmc : EncodedFields.Statement .getmc :=
  ⟨macroOf_instrWord _ _ _ _, opmsbOf_instrWord _ _ _ _⟩
theorem EncodedFields.setpc : EncodedFields.Statement .setpc :=
  ⟨macroOf_instrWord _ _ _ _, opmsbOf_instrWord _ _ _ _⟩
theorem EncodedFields.setmc : EncodedFields.Statement .setmc :=
  ⟨macroOf_instrWord _ _ _ _, opmsbOf_instrWord _ _ _ _⟩
theorem EncodedFields.usermode (k : BitVec 4) : EncodedFields.Statement (.usermode k) :=
  ⟨macroOf_instrWord _ _ _ _, opmsbOf_instrWord _ _ _ _⟩
theorem EncodedFields.offset (k : BitVec 4) : EncodedFields.Statement (.offset k) :=
  ⟨macroOf_instrWord _ _ _ _, opmsbOf_instrWord _ _ _ _⟩
theorem EncodedFields.getstat : EncodedFields.Statement .getstat :=
  ⟨macroOf_instrWord _ _ _ _, opmsbOf_instrWord _ _ _ _⟩
theorem EncodedFields.getver : EncodedFields.Statement .getver :=
  ⟨macroOf_instrWord _ _ _ _, opmsbOf_instrWord _ _ _ _⟩
theorem EncodedFields.getid : EncodedFields.Statement .getid :=
  ⟨macroOf_instrWord _ _ _ _, opmsbOf_instrWord _ _ _ _⟩
theorem EncodedFields.cpuinfo : EncodedFields.Statement .cpuinfo :=
  ⟨macroOf_instrWord _ _ _ _, opmsbOf_instrWord _ _ _ _⟩
theorem EncodedFields.clear (k : BitVec 4) : EncodedFields.Statement (.clear k) :=
  ⟨macroOf_instrWord _ _ _ _, opmsbOf_instrWord _ _ _ _⟩
theorem EncodedFields.load : EncodedFields.Statement .load :=
  ⟨macroOf_instrWord _ _ _ _, opmsbOf_instrWord _ _ _ _⟩
theorem EncodedFields.save : EncodedFields.Statement .save :=
  ⟨macroOf_instrWord _ _ _ _, opmsbOf_instrWord _ _ _ _⟩
theorem EncodedFields.clc : EncodedFields.Statement .clc :=
  ⟨macroOf_instrWord _ _ _ _, opmsbOf_instrWord _ _ _ _⟩
theorem EncodedFields.pmemacc : EncodedFields.Statement .pmemacc :=
  ⟨macroOf_instrWord _ _ _ _, opmsbOf_instrWord _ _ _ _⟩
theorem EncodedFields.int (k : BitVec 4) : EncodedFields.Statement (.int k) :=
  ⟨macroOf_instrWord _ _ _ _, opmsbOf_instrWord _ _ _ _⟩
theorem EncodedFields.disable : EncodedFields.Statement .disable :=
  ⟨macroOf_instrWord _ _ _ _, opmsbOf_instrWord _ _ _ _⟩
theorem EncodedFields.enable : EncodedFields.Statement .enable :=
  ⟨macroOf_instrWord _ _ _ _, opmsbOf_instrWord _ _ _ _⟩
theorem EncodedFields.inputa : EncodedFields.Statement .inputa :=
  ⟨macroOf_instrWord _ _ _ _, opmsbOf_instrWord _ _ _ _⟩
theorem EncodedFields.outputb : EncodedFields.Statement .outputb :=
  ⟨macroOf_instrWord _ _ _ _, opmsbOf_instrWord _ _ _ _⟩
theorem EncodedFields.inout : EncodedFields.Statement .inout :=
  ⟨macroOf_instrWord _ _ _ _, opmsbOf_instrWord _ _ _ _⟩
theorem EncodedFields.ldAImm (n : Byte) : EncodedFields.Statement (.ldAImm n) :=
  ⟨macroOf_instrWord _ _ _ _, opmsbOf_instrWord _ _ _ _⟩
theorem EncodedFields.ldBImm (n : Byte) : EncodedFields.Statement (.ldBImm n) :=
  ⟨macroOf_instrWord _ _ _ _, opmsbOf_instrWord _ _ _ _⟩
theorem EncodedFields.ldCImm (n : Byte) : EncodedFields.Statement (.ldCImm n) :=
  ⟨macroOf_instrWord _ _ _ _, opmsbOf_instrWord _ _ _ _⟩
theorem EncodedFields.setflagDirect (m : BitVec 7) : EncodedFields.Statement (.setflagDirect m) :=
  ⟨macroOf_instrWord _ _ _ _, opmsbOf_instrWord _ _ _ _⟩
theorem EncodedFields.setflagPtr : EncodedFields.Statement .setflagPtr :=
  ⟨macroOf_instrWord _ _ _ _, opmsbOf_instrWord _ _ _ _⟩
theorem EncodedFields.setflagPage (m : BitVec 7) : EncodedFields.Statement (.setflagPage m) :=
  ⟨macroOf_instrWord _ _ _ _, opmsbOf_instrWord _ _ _ _⟩
theorem EncodedFields.stDirectA (m : BitVec 7) : EncodedFields.Statement (.stDirectA m) :=
  ⟨macroOf_instrWord _ _ _ _, opmsbOf_instrWord _ _ _ _⟩
theorem EncodedFields.stPageA (m : BitVec 7) : EncodedFields.Statement (.stPageA m) :=
  ⟨macroOf_instrWord _ _ _ _, opmsbOf_instrWord _ _ _ _⟩
theorem EncodedFields.stDirectB (m : BitVec 7) : EncodedFields.Statement (.stDirectB m) :=
  ⟨macroOf_instrWord _ _ _ _, opmsbOf_instrWord _ _ _ _⟩
theorem EncodedFields.zero (m : BitVec 7) : EncodedFields.Statement (.zero m) :=
  ⟨macroOf_instrWord _ _ _ _, opmsbOf_instrWord _ _ _ _⟩
theorem EncodedFields.shlDirect (m : BitVec 7) : EncodedFields.Statement (.shlDirect m) :=
  ⟨macroOf_instrWord _ _ _ _, opmsbOf_instrWord _ _ _ _⟩
theorem EncodedFields.shlPtr : EncodedFields.Statement .shlPtr :=
  ⟨macroOf_instrWord _ _ _ _, opmsbOf_instrWord _ _ _ _⟩
theorem EncodedFields.shlPage (m : BitVec 7) : EncodedFields.Statement (.shlPage m) :=
  ⟨macroOf_instrWord _ _ _ _, opmsbOf_instrWord _ _ _ _⟩
theorem EncodedFields.shrDirect (m : BitVec 7) : EncodedFields.Statement (.shrDirect m) :=
  ⟨macroOf_instrWord _ _ _ _, opmsbOf_instrWord _ _ _ _⟩
theorem EncodedFields.shrPtr : EncodedFields.Statement .shrPtr :=
  ⟨macroOf_instrWord _ _ _ _, opmsbOf_instrWord _ _ _ _⟩
theorem EncodedFields.shrPage (m : BitVec 7) : EncodedFields.Statement (.shrPage m) :=
  ⟨macroOf_instrWord _ _ _ _, opmsbOf_instrWord _ _ _ _⟩
theorem EncodedFields.andDirectA (m : BitVec 7) : EncodedFields.Statement (.andDirectA m) :=
  ⟨macroOf_instrWord _ _ _ _, opmsbOf_instrWord _ _ _ _⟩
theorem EncodedFields.andPtrC : EncodedFields.Statement .andPtrC :=
  ⟨macroOf_instrWord _ _ _ _, opmsbOf_instrWord _ _ _ _⟩
theorem EncodedFields.andPageA (m : BitVec 7) : EncodedFields.Statement (.andPageA m) :=
  ⟨macroOf_instrWord _ _ _ _, opmsbOf_instrWord _ _ _ _⟩
theorem EncodedFields.stDirectC (m : BitVec 7) : EncodedFields.Statement (.stDirectC m) :=
  ⟨macroOf_instrWord _ _ _ _, opmsbOf_instrWord _ _ _ _⟩
theorem EncodedFields.stPtrC : EncodedFields.Statement .stPtrC :=
  ⟨macroOf_instrWord _ _ _ _, opmsbOf_instrWord _ _ _ _⟩
theorem EncodedFields.stPageC (m : BitVec 7) : EncodedFields.Statement (.stPageC m) :=
  ⟨macroOf_instrWord _ _ _ _, opmsbOf_instrWord _ _ _ _⟩
theorem EncodedFields.xorDirectA (m : BitVec 7) : EncodedFields.Statement (.xorDirectA m) :=
  ⟨macroOf_instrWord _ _ _ _, opmsbOf_instrWord _ _ _ _⟩
theorem EncodedFields.xorPtrC : EncodedFields.Statement .xorPtrC :=
  ⟨macroOf_instrWord _ _ _ _, opmsbOf_instrWord _ _ _ _⟩
theorem EncodedFields.xorPageA (m : BitVec 7) : EncodedFields.Statement (.xorPageA m) :=
  ⟨macroOf_instrWord _ _ _ _, opmsbOf_instrWord _ _ _ _⟩
theorem EncodedFields.getflagDirect (m : BitVec 7) : EncodedFields.Statement (.getflagDirect m) :=
  ⟨macroOf_instrWord _ _ _ _, opmsbOf_instrWord _ _ _ _⟩
theorem EncodedFields.getflagPtr : EncodedFields.Statement .getflagPtr :=
  ⟨macroOf_instrWord _ _ _ _, opmsbOf_instrWord _ _ _ _⟩
theorem EncodedFields.getflagPage (m : BitVec 7) : EncodedFields.Statement (.getflagPage m) :=
  ⟨macroOf_instrWord _ _ _ _, opmsbOf_instrWord _ _ _ _⟩
theorem EncodedFields.orDirectA (m : BitVec 7) : EncodedFields.Statement (.orDirectA m) :=
  ⟨macroOf_instrWord _ _ _ _, opmsbOf_instrWord _ _ _ _⟩
theorem EncodedFields.orPtrC : EncodedFields.Statement .orPtrC :=
  ⟨macroOf_instrWord _ _ _ _, opmsbOf_instrWord _ _ _ _⟩
theorem EncodedFields.orPageA (m : BitVec 7) : EncodedFields.Statement (.orPageA m) :=
  ⟨macroOf_instrWord _ _ _ _, opmsbOf_instrWord _ _ _ _⟩
theorem EncodedFields.jmpDirect (m : BitVec 7) : EncodedFields.Statement (.jmpDirect m) :=
  ⟨macroOf_instrWord _ _ _ _, opmsbOf_instrWord _ _ _ _⟩
theorem EncodedFields.jmpC0 : EncodedFields.Statement .jmpC0 :=
  ⟨macroOf_instrWord _ _ _ _, opmsbOf_instrWord _ _ _ _⟩
theorem EncodedFields.jmpC1 : EncodedFields.Statement .jmpC1 :=
  ⟨macroOf_instrWord _ _ _ _, opmsbOf_instrWord _ _ _ _⟩
theorem EncodedFields.jmpZ0 : EncodedFields.Statement .jmpZ0 :=
  ⟨macroOf_instrWord _ _ _ _, opmsbOf_instrWord _ _ _ _⟩
theorem EncodedFields.jmpZ1 : EncodedFields.Statement .jmpZ1 :=
  ⟨macroOf_instrWord _ _ _ _, opmsbOf_instrWord _ _ _ _⟩
theorem EncodedFields.jmpPtr : EncodedFields.Statement .jmpPtr :=
  ⟨macroOf_instrWord _ _ _ _, opmsbOf_instrWord _ _ _ _⟩
theorem EncodedFields.jmpPage (m : BitVec 7) : EncodedFields.Statement (.jmpPage m) :=
  ⟨macroOf_instrWord _ _ _ _, opmsbOf_instrWord _ _ _ _⟩
theorem EncodedFields.balDirect (m : BitVec 7) : EncodedFields.Statement (.balDirect m) :=
  ⟨macroOf_instrWord _ _ _ _, opmsbOf_instrWord _ _ _ _⟩
theorem EncodedFields.balC0 : EncodedFields.Statement .balC0 :=
  ⟨macroOf_instrWord _ _ _ _, opmsbOf_instrWord _ _ _ _⟩
theorem EncodedFields.balC1 : EncodedFields.Statement .balC1 :=
  ⟨macroOf_instrWord _ _ _ _, opmsbOf_instrWord _ _ _ _⟩
theorem EncodedFields.balZ0 : EncodedFields.Statement .balZ0 :=
  ⟨macroOf_instrWord _ _ _ _, opmsbOf_instrWord _ _ _ _⟩
theorem EncodedFields.balZ1 : EncodedFields.Statement .balZ1 :=
  ⟨macroOf_instrWord _ _ _ _, opmsbOf_instrWord _ _ _ _⟩
theorem EncodedFields.balPtr : EncodedFields.Statement .balPtr :=
  ⟨macroOf_instrWord _ _ _ _, opmsbOf_instrWord _ _ _ _⟩
theorem EncodedFields.balPage (m : BitVec 7) : EncodedFields.Statement (.balPage m) :=
  ⟨macroOf_instrWord _ _ _ _, opmsbOf_instrWord _ _ _ _⟩
theorem EncodedFields.jrRel (n : Byte) : EncodedFields.Statement (.jrRel n) :=
  ⟨macroOf_instrWord _ _ _ _, opmsbOf_instrWord _ _ _ _⟩
theorem EncodedFields.jrB : EncodedFields.Statement .jrB :=
  ⟨macroOf_instrWord _ _ _ _, opmsbOf_instrWord _ _ _ _⟩
theorem EncodedFields.brRel (n : Byte) : EncodedFields.Statement (.brRel n) :=
  ⟨macroOf_instrWord _ _ _ _, opmsbOf_instrWord _ _ _ _⟩
theorem EncodedFields.brB : EncodedFields.Statement .brB :=
  ⟨macroOf_instrWord _ _ _ _, opmsbOf_instrWord _ _ _ _⟩
theorem EncodedFields.jrC0Rel (n : Byte) : EncodedFields.Statement (.jrC0Rel n) :=
  ⟨macroOf_instrWord _ _ _ _, opmsbOf_instrWord _ _ _ _⟩
theorem EncodedFields.jrC0B : EncodedFields.Statement .jrC0B :=
  ⟨macroOf_instrWord _ _ _ _, opmsbOf_instrWord _ _ _ _⟩
theorem EncodedFields.brC0Rel (n : Byte) : EncodedFields.Statement (.brC0Rel n) :=
  ⟨macroOf_instrWord _ _ _ _, opmsbOf_instrWord _ _ _ _⟩
theorem EncodedFields.brC0B : EncodedFields.Statement .brC0B :=
  ⟨macroOf_instrWord _ _ _ _, opmsbOf_instrWord _ _ _ _⟩
theorem EncodedFields.jrC1Rel (n : Byte) : EncodedFields.Statement (.jrC1Rel n) :=
  ⟨macroOf_instrWord _ _ _ _, opmsbOf_instrWord _ _ _ _⟩
theorem EncodedFields.jrC1B : EncodedFields.Statement .jrC1B :=
  ⟨macroOf_instrWord _ _ _ _, opmsbOf_instrWord _ _ _ _⟩
theorem EncodedFields.brC1Rel (n : Byte) : EncodedFields.Statement (.brC1Rel n) :=
  ⟨macroOf_instrWord _ _ _ _, opmsbOf_instrWord _ _ _ _⟩
theorem EncodedFields.brC1B : EncodedFields.Statement .brC1B :=
  ⟨macroOf_instrWord _ _ _ _, opmsbOf_instrWord _ _ _ _⟩
theorem EncodedFields.jrZ0Rel (n : Byte) : EncodedFields.Statement (.jrZ0Rel n) :=
  ⟨macroOf_instrWord _ _ _ _, opmsbOf_instrWord _ _ _ _⟩
theorem EncodedFields.jrZ0B : EncodedFields.Statement .jrZ0B :=
  ⟨macroOf_instrWord _ _ _ _, opmsbOf_instrWord _ _ _ _⟩
theorem EncodedFields.brZ0Rel (n : Byte) : EncodedFields.Statement (.brZ0Rel n) :=
  ⟨macroOf_instrWord _ _ _ _, opmsbOf_instrWord _ _ _ _⟩
theorem EncodedFields.brZ0B : EncodedFields.Statement .brZ0B :=
  ⟨macroOf_instrWord _ _ _ _, opmsbOf_instrWord _ _ _ _⟩
theorem EncodedFields.jrZ1Rel (n : Byte) : EncodedFields.Statement (.jrZ1Rel n) :=
  ⟨macroOf_instrWord _ _ _ _, opmsbOf_instrWord _ _ _ _⟩
theorem EncodedFields.jrZ1B : EncodedFields.Statement .jrZ1B :=
  ⟨macroOf_instrWord _ _ _ _, opmsbOf_instrWord _ _ _ _⟩
theorem EncodedFields.brZ1Rel (n : Byte) : EncodedFields.Statement (.brZ1Rel n) :=
  ⟨macroOf_instrWord _ _ _ _, opmsbOf_instrWord _ _ _ _⟩
theorem EncodedFields.brZ1B : EncodedFields.Statement .brZ1B :=
  ⟨macroOf_instrWord _ _ _ _, opmsbOf_instrWord _ _ _ _⟩
theorem EncodedFields.inDirect (m : BitVec 7) : EncodedFields.Statement (.inDirect m) :=
  ⟨macroOf_instrWord _ _ _ _, opmsbOf_instrWord _ _ _ _⟩
theorem EncodedFields.inPtr : EncodedFields.Statement .inPtr :=
  ⟨macroOf_instrWord _ _ _ _, opmsbOf_instrWord _ _ _ _⟩
theorem EncodedFields.inPage (m : BitVec 7) : EncodedFields.Statement (.inPage m) :=
  ⟨macroOf_instrWord _ _ _ _, opmsbOf_instrWord _ _ _ _⟩
theorem EncodedFields.outDirect (m : BitVec 7) : EncodedFields.Statement (.outDirect m) :=
  ⟨macroOf_instrWord _ _ _ _, opmsbOf_instrWord _ _ _ _⟩
theorem EncodedFields.outPtr : EncodedFields.Statement .outPtr :=
  ⟨macroOf_instrWord _ _ _ _, opmsbOf_instrWord _ _ _ _⟩
theorem EncodedFields.outPage (m : BitVec 7) : EncodedFields.Statement (.outPage m) :=
  ⟨macroOf_instrWord _ _ _ _, opmsbOf_instrWord _ _ _ _⟩
theorem EncodedFields.reti (m : BitVec 7) : EncodedFields.Statement (.reti m) :=
  ⟨macroOf_instrWord _ _ _ _, opmsbOf_instrWord _ _ _ _⟩
theorem EncodedFields.incDirect (m : BitVec 7) : EncodedFields.Statement (.incDirect m) :=
  ⟨macroOf_instrWord _ _ _ _, opmsbOf_instrWord _ _ _ _⟩
theorem EncodedFields.incPtr : EncodedFields.Statement .incPtr :=
  ⟨macroOf_instrWord _ _ _ _, opmsbOf_instrWord _ _ _ _⟩
theorem EncodedFields.incPage (m : BitVec 7) : EncodedFields.Statement (.incPage m) :=
  ⟨macroOf_instrWord _ _ _ _, opmsbOf_instrWord _ _ _ _⟩
theorem EncodedFields.inccDirect (m : BitVec 7) : EncodedFields.Statement (.inccDirect m) :=
  ⟨macroOf_instrWord _ _ _ _, opmsbOf_instrWord _ _ _ _⟩
theorem EncodedFields.inccPtr : EncodedFields.Statement .inccPtr :=
  ⟨macroOf_instrWord _ _ _ _, opmsbOf_instrWord _ _ _ _⟩
theorem EncodedFields.inccPage (m : BitVec 7) : EncodedFields.Statement (.inccPage m) :=
  ⟨macroOf_instrWord _ _ _ _, opmsbOf_instrWord _ _ _ _⟩
theorem EncodedFields.incxDirect (m : BitVec 7) : EncodedFields.Statement (.incxDirect m) :=
  ⟨macroOf_instrWord _ _ _ _, opmsbOf_instrWord _ _ _ _⟩
theorem EncodedFields.incxPtr : EncodedFields.Statement .incxPtr :=
  ⟨macroOf_instrWord _ _ _ _, opmsbOf_instrWord _ _ _ _⟩
theorem EncodedFields.incxPage (m : BitVec 7) : EncodedFields.Statement (.incxPage m) :=
  ⟨macroOf_instrWord _ _ _ _, opmsbOf_instrWord _ _ _ _⟩
theorem EncodedFields.incxcDirect (m : BitVec 7) : EncodedFields.Statement (.incxcDirect m) :=
  ⟨macroOf_instrWord _ _ _ _, opmsbOf_instrWord _ _ _ _⟩
theorem EncodedFields.incxcPtr : EncodedFields.Statement .incxcPtr :=
  ⟨macroOf_instrWord _ _ _ _, opmsbOf_instrWord _ _ _ _⟩
theorem EncodedFields.incxcPage (m : BitVec 7) : EncodedFields.Statement (.incxcPage m) :=
  ⟨macroOf_instrWord _ _ _ _, opmsbOf_instrWord _ _ _ _⟩
theorem EncodedFields.addDirectA (m : BitVec 7) : EncodedFields.Statement (.addDirectA m) :=
  ⟨macroOf_instrWord _ _ _ _, opmsbOf_instrWord _ _ _ _⟩
theorem EncodedFields.addPtrC : EncodedFields.Statement .addPtrC :=
  ⟨macroOf_instrWord _ _ _ _, opmsbOf_instrWord _ _ _ _⟩
theorem EncodedFields.addPageA (m : BitVec 7) : EncodedFields.Statement (.addPageA m) :=
  ⟨macroOf_instrWord _ _ _ _, opmsbOf_instrWord _ _ _ _⟩
theorem EncodedFields.addcDirectA (m : BitVec 7) : EncodedFields.Statement (.addcDirectA m) :=
  ⟨macroOf_instrWord _ _ _ _, opmsbOf_instrWord _ _ _ _⟩
theorem EncodedFields.addcPtrC : EncodedFields.Statement .addcPtrC :=
  ⟨macroOf_instrWord _ _ _ _, opmsbOf_instrWord _ _ _ _⟩
theorem EncodedFields.addcPageA (m : BitVec 7) : EncodedFields.Statement (.addcPageA m) :=
  ⟨macroOf_instrWord _ _ _ _, opmsbOf_instrWord _ _ _ _⟩
theorem EncodedFields.addADirect (m : BitVec 7) : EncodedFields.Statement (.addADirect m) :=
  ⟨macroOf_instrWord _ _ _ _, opmsbOf_instrWord _ _ _ _⟩
theorem EncodedFields.addAC : EncodedFields.Statement .addAC :=
  ⟨macroOf_instrWord _ _ _ _, opmsbOf_instrWord _ _ _ _⟩
theorem EncodedFields.addAPage (m : BitVec 7) : EncodedFields.Statement (.addAPage m) :=
  ⟨macroOf_instrWord _ _ _ _, opmsbOf_instrWord _ _ _ _⟩
theorem EncodedFields.addcADirect (m : BitVec 7) : EncodedFields.Statement (.addcADirect m) :=
  ⟨macroOf_instrWord _ _ _ _, opmsbOf_instrWord _ _ _ _⟩
theorem EncodedFields.addcAC : EncodedFields.Statement .addcAC :=
  ⟨macroOf_instrWord _ _ _ _, opmsbOf_instrWord _ _ _ _⟩
theorem EncodedFields.addcAPage (m : BitVec 7) : EncodedFields.Statement (.addcAPage m) :=
  ⟨macroOf_instrWord _ _ _ _, opmsbOf_instrWord _ _ _ _⟩
theorem EncodedFields.shlcDirect (m : BitVec 7) : EncodedFields.Statement (.shlcDirect m) :=
  ⟨macroOf_instrWord _ _ _ _, opmsbOf_instrWord _ _ _ _⟩
theorem EncodedFields.shlcPtr : EncodedFields.Statement .shlcPtr :=
  ⟨macroOf_instrWord _ _ _ _, opmsbOf_instrWord _ _ _ _⟩
theorem EncodedFields.shlcPage (m : BitVec 7) : EncodedFields.Statement (.shlcPage m) :=
  ⟨macroOf_instrWord _ _ _ _, opmsbOf_instrWord _ _ _ _⟩
theorem EncodedFields.shrcDirect (m : BitVec 7) : EncodedFields.Statement (.shrcDirect m) :=
  ⟨macroOf_instrWord _ _ _ _, opmsbOf_instrWord _ _ _ _⟩
theorem EncodedFields.shrcPtr : EncodedFields.Statement .shrcPtr :=
  ⟨macroOf_instrWord _ _ _ _, opmsbOf_instrWord _ _ _ _⟩
theorem EncodedFields.shrcPage (m : BitVec 7) : EncodedFields.Statement (.shrcPage m) :=
  ⟨macroOf_instrWord _ _ _ _, opmsbOf_instrWord _ _ _ _⟩
theorem EncodedFields.ldADirect (m : BitVec 7) : EncodedFields.Statement (.ldADirect m) :=
  ⟨macroOf_instrWord _ _ _ _, opmsbOf_instrWord _ _ _ _⟩
theorem EncodedFields.ldAPtr : EncodedFields.Statement .ldAPtr :=
  ⟨macroOf_instrWord _ _ _ _, opmsbOf_instrWord _ _ _ _⟩
theorem EncodedFields.ldAPage (m : BitVec 7) : EncodedFields.Statement (.ldAPage m) :=
  ⟨macroOf_instrWord _ _ _ _, opmsbOf_instrWord _ _ _ _⟩
theorem EncodedFields.ldBDirect (m : BitVec 7) : EncodedFields.Statement (.ldBDirect m) :=
  ⟨macroOf_instrWord _ _ _ _, opmsbOf_instrWord _ _ _ _⟩
theorem EncodedFields.ldBPtr : EncodedFields.Statement .ldBPtr :=
  ⟨macroOf_instrWord _ _ _ _, opmsbOf_instrWord _ _ _ _⟩
theorem EncodedFields.ldBPage (m : BitVec 7) : EncodedFields.Statement (.ldBPage m) :=
  ⟨macroOf_instrWord _ _ _ _, opmsbOf_instrWord _ _ _ _⟩
theorem EncodedFields.ldCDirect (m : BitVec 7) : EncodedFields.Statement (.ldCDirect m) :=
  ⟨macroOf_instrWord _ _ _ _, opmsbOf_instrWord _ _ _ _⟩
theorem EncodedFields.ldCPtr : EncodedFields.Statement .ldCPtr :=
  ⟨macroOf_instrWord _ _ _ _, opmsbOf_instrWord _ _ _ _⟩
theorem EncodedFields.ldCPage (m : BitVec 7) : EncodedFields.Statement (.ldCPage m) :=
  ⟨macroOf_instrWord _ _ _ _, opmsbOf_instrWord _ _ _ _⟩
theorem EncodedFields.stacpDirect (m : BitVec 7) : EncodedFields.Statement (.stacpDirect m) :=
  ⟨macroOf_instrWord _ _ _ _, opmsbOf_instrWord _ _ _ _⟩
theorem EncodedFields.stacpPtr : EncodedFields.Statement .stacpPtr :=
  ⟨macroOf_instrWord _ _ _ _, opmsbOf_instrWord _ _ _ _⟩
theorem EncodedFields.stacpPage (m : BitVec 7) : EncodedFields.Statement (.stacpPage m) :=
  ⟨macroOf_instrWord _ _ _ _, opmsbOf_instrWord _ _ _ _⟩
theorem EncodedFields.stabDirect (m : BitVec 7) : EncodedFields.Statement (.stabDirect m) :=
  ⟨macroOf_instrWord _ _ _ _, opmsbOf_instrWord _ _ _ _⟩
theorem EncodedFields.stacPtr : EncodedFields.Statement .stacPtr :=
  ⟨macroOf_instrWord _ _ _ _, opmsbOf_instrWord _ _ _ _⟩
theorem EncodedFields.stabPage (m : BitVec 7) : EncodedFields.Statement (.stabPage m) :=
  ⟨macroOf_instrWord _ _ _ _, opmsbOf_instrWord _ _ _ _⟩
theorem EncodedFields.stabpDirect (m : BitVec 7) : EncodedFields.Statement (.stabpDirect m) :=
  ⟨macroOf_instrWord _ _ _ _, opmsbOf_instrWord _ _ _ _⟩
theorem EncodedFields.stzcpPtr : EncodedFields.Statement .stzcpPtr :=
  ⟨macroOf_instrWord _ _ _ _, opmsbOf_instrWord _ _ _ _⟩
theorem EncodedFields.stabpPage (m : BitVec 7) : EncodedFields.Statement (.stabpPage m) :=
  ⟨macroOf_instrWord _ _ _ _, opmsbOf_instrWord _ _ _ _⟩
theorem EncodedFields.decDirect (m : BitVec 7) : EncodedFields.Statement (.decDirect m) :=
  ⟨macroOf_instrWord _ _ _ _, opmsbOf_instrWord _ _ _ _⟩
theorem EncodedFields.decPtr : EncodedFields.Statement .decPtr :=
  ⟨macroOf_instrWord _ _ _ _, opmsbOf_instrWord _ _ _ _⟩
theorem EncodedFields.decPage (m : BitVec 7) : EncodedFields.Statement (.decPage m) :=
  ⟨macroOf_instrWord _ _ _ _, opmsbOf_instrWord _ _ _ _⟩
theorem EncodedFields.deccDirect (m : BitVec 7) : EncodedFields.Statement (.deccDirect m) :=
  ⟨macroOf_instrWord _ _ _ _, opmsbOf_instrWord _ _ _ _⟩
theorem EncodedFields.deccPtr : EncodedFields.Statement .deccPtr :=
  ⟨macroOf_instrWord _ _ _ _, opmsbOf_instrWord _ _ _ _⟩
theorem EncodedFields.deccPage (m : BitVec 7) : EncodedFields.Statement (.deccPage m) :=
  ⟨macroOf_instrWord _ _ _ _, opmsbOf_instrWord _ _ _ _⟩
theorem EncodedFields.decxDirect (m : BitVec 7) : EncodedFields.Statement (.decxDirect m) :=
  ⟨macroOf_instrWord _ _ _ _, opmsbOf_instrWord _ _ _ _⟩
theorem EncodedFields.decxPtr : EncodedFields.Statement .decxPtr :=
  ⟨macroOf_instrWord _ _ _ _, opmsbOf_instrWord _ _ _ _⟩
theorem EncodedFields.decxPage (m : BitVec 7) : EncodedFields.Statement (.decxPage m) :=
  ⟨macroOf_instrWord _ _ _ _, opmsbOf_instrWord _ _ _ _⟩
theorem EncodedFields.decxcDirect (m : BitVec 7) : EncodedFields.Statement (.decxcDirect m) :=
  ⟨macroOf_instrWord _ _ _ _, opmsbOf_instrWord _ _ _ _⟩
theorem EncodedFields.decxcPtr : EncodedFields.Statement .decxcPtr :=
  ⟨macroOf_instrWord _ _ _ _, opmsbOf_instrWord _ _ _ _⟩
theorem EncodedFields.decxcPage (m : BitVec 7) : EncodedFields.Statement (.decxcPage m) :=
  ⟨macroOf_instrWord _ _ _ _, opmsbOf_instrWord _ _ _ _⟩
theorem EncodedFields.subDirectA (m : BitVec 7) : EncodedFields.Statement (.subDirectA m) :=
  ⟨macroOf_instrWord _ _ _ _, opmsbOf_instrWord _ _ _ _⟩
theorem EncodedFields.subPtrC : EncodedFields.Statement .subPtrC :=
  ⟨macroOf_instrWord _ _ _ _, opmsbOf_instrWord _ _ _ _⟩
theorem EncodedFields.subPageA (m : BitVec 7) : EncodedFields.Statement (.subPageA m) :=
  ⟨macroOf_instrWord _ _ _ _, opmsbOf_instrWord _ _ _ _⟩
theorem EncodedFields.subcDirectA (m : BitVec 7) : EncodedFields.Statement (.subcDirectA m) :=
  ⟨macroOf_instrWord _ _ _ _, opmsbOf_instrWord _ _ _ _⟩
theorem EncodedFields.subcPtrC : EncodedFields.Statement .subcPtrC :=
  ⟨macroOf_instrWord _ _ _ _, opmsbOf_instrWord _ _ _ _⟩
theorem EncodedFields.subcPageA (m : BitVec 7) : EncodedFields.Statement (.subcPageA m) :=
  ⟨macroOf_instrWord _ _ _ _, opmsbOf_instrWord _ _ _ _⟩
theorem EncodedFields.subADirect (m : BitVec 7) : EncodedFields.Statement (.subADirect m) :=
  ⟨macroOf_instrWord _ _ _ _, opmsbOf_instrWord _ _ _ _⟩
theorem EncodedFields.subAC : EncodedFields.Statement .subAC :=
  ⟨macroOf_instrWord _ _ _ _, opmsbOf_instrWord _ _ _ _⟩
theorem EncodedFields.subAPage (m : BitVec 7) : EncodedFields.Statement (.subAPage m) :=
  ⟨macroOf_instrWord _ _ _ _, opmsbOf_instrWord _ _ _ _⟩
theorem EncodedFields.subcADirect (m : BitVec 7) : EncodedFields.Statement (.subcADirect m) :=
  ⟨macroOf_instrWord _ _ _ _, opmsbOf_instrWord _ _ _ _⟩
theorem EncodedFields.subcAC : EncodedFields.Statement .subcAC :=
  ⟨macroOf_instrWord _ _ _ _, opmsbOf_instrWord _ _ _ _⟩
theorem EncodedFields.subcAPage (m : BitVec 7) : EncodedFields.Statement (.subcAPage m) :=
  ⟨macroOf_instrWord _ _ _ _, opmsbOf_instrWord _ _ _ _⟩
theorem EncodedFields.loopdecZero : EncodedFields.Statement .loopdecZero :=
  ⟨macroOf_instrWord _ _ _ _, opmsbOf_instrWord _ _ _ _⟩
theorem EncodedFields.loopdecRel (n : Byte) : EncodedFields.Statement (.loopdecRel n) :=
  ⟨macroOf_instrWord _ _ _ _, opmsbOf_instrWord _ _ _ _⟩
theorem EncodedFields.loopshrc : EncodedFields.Statement .loopshrc :=
  ⟨macroOf_instrWord _ _ _ _, opmsbOf_instrWord _ _ _ _⟩
theorem EncodedFields.loopzero : EncodedFields.Statement .loopzero :=
  ⟨macroOf_instrWord _ _ _ _, opmsbOf_instrWord _ _ _ _⟩
theorem EncodedFields.loopincRel (n : Byte) : EncodedFields.Statement (.loopincRel n) :=
  ⟨macroOf_instrWord _ _ _ _, opmsbOf_instrWord _ _ _ _⟩
theorem EncodedFields.loopshlc : EncodedFields.Statement .loopshlc :=
  ⟨macroOf_instrWord _ _ _ _, opmsbOf_instrWord _ _ _ _⟩
theorem EncodedFields.andADirect (m : BitVec 7) : EncodedFields.Statement (.andADirect m) :=
  ⟨macroOf_instrWord _ _ _ _, opmsbOf_instrWord _ _ _ _⟩
theorem EncodedFields.andAC : EncodedFields.Statement .andAC :=
  ⟨macroOf_instrWord _ _ _ _, opmsbOf_instrWord _ _ _ _⟩
theorem EncodedFields.andAPage (m : BitVec 7) : EncodedFields.Statement (.andAPage m) :=
  ⟨macroOf_instrWord _ _ _ _, opmsbOf_instrWord _ _ _ _⟩
theorem EncodedFields.andAImm (n : Byte) : EncodedFields.Statement (.andAImm n) :=
  ⟨macroOf_instrWord _ _ _ _, opmsbOf_instrWord _ _ _ _⟩
theorem EncodedFields.xorADirect (m : BitVec 7) : EncodedFields.Statement (.xorADirect m) :=
  ⟨macroOf_instrWord _ _ _ _, opmsbOf_instrWord _ _ _ _⟩
theorem EncodedFields.xorAC : EncodedFields.Statement .xorAC :=
  ⟨macroOf_instrWord _ _ _ _, opmsbOf_instrWord _ _ _ _⟩
theorem EncodedFields.xorAPage (m : BitVec 7) : EncodedFields.Statement (.xorAPage m) :=
  ⟨macroOf_instrWord _ _ _ _, opmsbOf_instrWord _ _ _ _⟩
theorem EncodedFields.xorAImm (n : Byte) : EncodedFields.Statement (.xorAImm n) :=
  ⟨macroOf_instrWord _ _ _ _, opmsbOf_instrWord _ _ _ _⟩
theorem EncodedFields.orADirect (m : BitVec 7) : EncodedFields.Statement (.orADirect m) :=
  ⟨macroOf_instrWord _ _ _ _, opmsbOf_instrWord _ _ _ _⟩
theorem EncodedFields.orAC : EncodedFields.Statement .orAC :=
  ⟨macroOf_instrWord _ _ _ _, opmsbOf_instrWord _ _ _ _⟩
theorem EncodedFields.orAPage (m : BitVec 7) : EncodedFields.Statement (.orAPage m) :=
  ⟨macroOf_instrWord _ _ _ _, opmsbOf_instrWord _ _ _ _⟩
theorem EncodedFields.orAImm (n : Byte) : EncodedFields.Statement (.orAImm n) :=
  ⟨macroOf_instrWord _ _ _ _, opmsbOf_instrWord _ _ _ _⟩
theorem EncodedFields.ldxAImm (n : Byte) : EncodedFields.Statement (.ldxAImm n) :=
  ⟨macroOf_instrWord _ _ _ _, opmsbOf_instrWord _ _ _ _⟩
theorem EncodedFields.ldxADirect (m : BitVec 7) : EncodedFields.Statement (.ldxADirect m) :=
  ⟨macroOf_instrWord _ _ _ _, opmsbOf_instrWord _ _ _ _⟩
theorem EncodedFields.ldxAPtr : EncodedFields.Statement .ldxAPtr :=
  ⟨macroOf_instrWord _ _ _ _, opmsbOf_instrWord _ _ _ _⟩
theorem EncodedFields.ldxAPage (m : BitVec 7) : EncodedFields.Statement (.ldxAPage m) :=
  ⟨macroOf_instrWord _ _ _ _, opmsbOf_instrWord _ _ _ _⟩
theorem EncodedFields.hmacro (p : BitVec 6) (xx : Byte) : EncodedFields.Statement (.hmacro p xx) :=
  ⟨macroOf_instrWord _ _ _ _, opmsbOf_instrWord _ _ _ _⟩
theorem EncodedFields.macroEnd (opmsb : Bool) (op : BitVec 6) (xx : Byte) : EncodedFields.Statement (.macroEnd opmsb op xx) :=
  ⟨macroOf_instrWord _ _ _ _, opmsbOf_instrWord _ _ _ _⟩

end Sys2Proof.Laws
end

