-- ==== Sys2Proof/Tests/Slice0.lean ====
section
/-!
SUPPORT. Small tests. The words of the decode tests are written from the rows of spec/opcode_table.json. Each one-step test is a row of
spec/95_test_vectors.md, named by its id there. Each `test_witness_` theorem shows states and operands that meet the hypotheses of
one statement, clause by clause.
-/

namespace Sys2Proof.Machine

open Sys2Proof

/-! ### Ill-formed terms are refused -/

theorem test_wf_direct : ∀ i ∈ [Instr.setflagDirect 127, .stDirectA 127, .stDirectB 127, .andDirectA 127, .ldADirect 127, .decxcDirect 127, .orADirect 127, .ldxADirect 127, .inDirect 127], i.wf = false := by decide

theorem test_wf_direct_ok : ∀ i ∈ [Instr.setflagDirect 126, .ldADirect 126, .ldxADirect 126, .zero 127, .ldAPage 127], i.wf = true := by decide

theorem test_wf_jump : (Instr.jmpDirect 122).wf = false ∧ (Instr.balDirect 122).wf = false ∧ (Instr.jmpDirect 121).wf = true ∧ (Instr.balDirect 121).wf = true := by decide

theorem test_wf_reti : (Instr.reti 127).wf = false ∧ (Instr.reti 126).wf = true := by decide

theorem test_wf_relative : ∀ n ∈ [(0x7F : Byte), 0x80], ∀ f ∈ [Instr.jrRel, .brRel, .jrC0Rel, .brC0Rel, .jrC1Rel, .brC1Rel, .jrZ0Rel, .brZ0Rel, .jrZ1Rel, .brZ1Rel], (f n).wf = false := by decide

theorem test_wf_loop : ∀ n ∈ [(0 : Byte), 0x7F, 0x80], (Instr.loopdecRel n).wf = false ∧ (Instr.loopincRel n).wf = false := by decide

theorem test_wf_usermode : (Instr.usermode 2).wf = false ∧ (Instr.usermode 1).wf = true := by decide

theorem test_wf_offset : (Instr.offset 4).wf = false ∧ (Instr.offset 3).wf = true := by decide

theorem test_wf_clear : (Instr.clear 0).wf = false ∧ (Instr.clear 2).wf = false ∧ (Instr.clear 1).wf = true := by decide

/-! ### Words written out from the encoding tables -/

/-- The word decodes to the instruction with no effect of opmsb on B, and the encoder writes the same word. -/
def readsAs (mf : Bool) (w : InstrWord) (i : Instr) : Bool :=
  encode i == w &&
    match decode Config.sdog mf false w with
    | .ok d => decide (d = ⟨i, .own⟩)
    | .error _ => false

/-- Each word and its instruction, outside a hard macro. -/
def readAll (rows : List (InstrWord × Instr)) : Bool := rows.all fun row => readsAs false row.1 row.2

theorem test_decode_system : readAll [
    (0x003C, .nop 0x3C), (0x0100, .mulx), (0x0101, .ldAFromB), (0x0102, .ldBFromA), (0x0103, .swap), (0x0104, .mul),
    (0x0120, .ldBFromC), (0x0121, .getpc), (0x0122, .getmc), (0x0124, .setpc), (0x0128, .setmc), (0x0131, .usermode 1),
    (0x0142, .offset 2), (0x0151, .getstat), (0x0152, .getver), (0x0154, .getid), (0x0158, .cpuinfo), (0x0161, .clear 1),
    (0x01C1, .load), (0x01C2, .save), (0x01C4, .clc), (0x01C8, .pmemacc), (0x01D3, .int 3), (0x01E0, .disable),
    (0x01E1, .enable), (0x01F1, .inputa), (0x01F2, .outputb), (0x01F3, .inout)] = true := by decide

theorem test_decode_moves_1 : readAll [
    (0x023C, .ldAImm 0x3C), (0x0385, .ldBImm 0x85), (0x043C, .ldCImm 0x3C), (0x057E, .setflagDirect 0x7E),
    (0x057F, .setflagPtr), (0x0592, .setflagPage 0x12), (0x067E, .stDirectA 0x7E), (0x0692, .stPageA 0x12),
    (0x0721, .stDirectB 0x21), (0x07FF, .zero 0x7F), (0x0B21, .stDirectC 0x21), (0x0B7F, .stPtrC), (0x0BFF, .stPageC 0x7F),
    (0x0D21, .getflagDirect 0x21), (0x0D7F, .getflagPtr), (0x0DFF, .getflagPage 0x7F), (0x2A7E, .ldADirect 0x7E),
    (0x2A7F, .ldAPtr), (0x2A92, .ldAPage 0x12), (0x2B7E, .ldBDirect 0x7E), (0x2B7F, .ldBPtr), (0x2B92, .ldBPage 0x12),
    (0x2C7E, .ldCDirect 0x7E), (0x2C7F, .ldCPtr), (0x2C92, .ldCPage 0x12), (0x2D7E, .stacpDirect 0x7E), (0x2D7F, .stacpPtr),
    (0x2D92, .stacpPage 0x12)] = true := by decide

theorem test_decode_moves_2 : readAll [
    (0x2E7E, .stabDirect 0x7E), (0x2E7F, .stacPtr), (0x2E92, .stabPage 0x12), (0x2F7E, .stabpDirect 0x7E),
    (0x2F7F, .stzcpPtr), (0x2F92, .stabpPage 0x12)] = true := by decide

theorem test_decode_logic_1 : readAll [
    (0x0821, .shlDirect 0x21), (0x087F, .shlPtr), (0x08FF, .shlPage 0x7F), (0x0921, .shrDirect 0x21), (0x097F, .shrPtr),
    (0x09FF, .shrPage 0x7F), (0x0A21, .andDirectA 0x21), (0x0A7F, .andPtrC), (0x0AFF, .andPageA 0x7F),
    (0x0C21, .xorDirectA 0x21), (0x0C7F, .xorPtrC), (0x0CFF, .xorPageA 0x7F), (0x0E21, .orDirectA 0x21), (0x0E7F, .orPtrC),
    (0x0EFF, .orPageA 0x7F), (0x287E, .shlcDirect 0x7E), (0x287F, .shlcPtr), (0x2892, .shlcPage 0x12),
    (0x297E, .shrcDirect 0x7E), (0x297F, .shrcPtr), (0x2992, .shrcPage 0x12), (0x3A7E, .andADirect 0x7E), (0x3A7F, .andAC),
    (0x3A92, .andAPage 0x12), (0x3B85, .andAImm 0x85), (0x3C21, .xorADirect 0x21), (0x3C7F, .xorAC), (0x3CFF, .xorAPage 0x7F)] = true := by decide

theorem test_decode_logic_2 : readAll [
    (0x3D85, .xorAImm 0x85), (0x3E21, .orADirect 0x21), (0x3E7F, .orAC), (0x3E92, .orAPage 0x12), (0x3F85, .orAImm 0x85)] = true := by decide

theorem test_decode_branch_1 : readAll [
    (0x1021, .jmpDirect 0x21), (0x107A, .jmpC0), (0x107B, .jmpC1), (0x107C, .jmpZ0), (0x107D, .jmpZ1), (0x107F, .jmpPtr),
    (0x1092, .jmpPage 0x12), (0x1121, .balDirect 0x21), (0x117A, .balC0), (0x117B, .balC1), (0x117C, .balZ0),
    (0x117D, .balZ1), (0x117F, .balPtr), (0x1192, .balPage 0x12), (0x12FD, .jrRel 0xFD), (0x1280, .jrB),
    (0x1385, .brRel 0x85), (0x1380, .brB), (0x1485, .jrC0Rel 0x85), (0x1480, .jrC0B), (0x1585, .brC0Rel 0x85),
    (0x1580, .brC0B), (0x1685, .jrC1Rel 0x85), (0x1680, .jrC1B), (0x1785, .brC1Rel 0x85), (0x1780, .brC1B),
    (0x1885, .jrZ0Rel 0x85), (0x1880, .jrZ0B)] = true := by decide

theorem test_decode_branch_2 : readAll [
    (0x1985, .brZ0Rel 0x85), (0x1980, .brZ0B), (0x1A85, .jrZ1Rel 0x85), (0x1A80, .jrZ1B), (0x1B85, .brZ1Rel 0x85),
    (0x1B80, .brZ1B)] = true := by decide

theorem test_decode_io : readAll [
    (0x1D21, .inDirect 0x21), (0x1D7F, .inPtr), (0x1D92, .inPage 0x12), (0x1E21, .outDirect 0x21), (0x1E7F, .outPtr),
    (0x1E92, .outPage 0x12)] = true := by decide

theorem test_decode_interrupt : readAll [
    (0x1F21, .reti 0x21)] = true := by decide

theorem test_decode_arith_1 : readAll [
    (0x207E, .incDirect 0x7E), (0x207F, .incPtr), (0x2092, .incPage 0x12), (0x217E, .inccDirect 0x7E), (0x217F, .inccPtr),
    (0x2192, .inccPage 0x12), (0x227E, .incxDirect 0x7E), (0x227F, .incxPtr), (0x2292, .incxPage 0x12),
    (0x237E, .incxcDirect 0x7E), (0x237F, .incxcPtr), (0x2392, .incxcPage 0x12), (0x247E, .addDirectA 0x7E),
    (0x247F, .addPtrC), (0x2492, .addPageA 0x12), (0x257E, .addcDirectA 0x7E), (0x257F, .addcPtrC),
    (0x2592, .addcPageA 0x12), (0x267E, .addADirect 0x7E), (0x267F, .addAC), (0x2692, .addAPage 0x12),
    (0x277E, .addcADirect 0x7E), (0x277F, .addcAC), (0x2792, .addcAPage 0x12), (0x307E, .decDirect 0x7E), (0x307F, .decPtr),
    (0x3092, .decPage 0x12), (0x317E, .deccDirect 0x7E)] = true := by decide

theorem test_decode_arith_2 : readAll [
    (0x317F, .deccPtr), (0x3192, .deccPage 0x12), (0x327E, .decxDirect 0x7E), (0x327F, .decxPtr), (0x3292, .decxPage 0x12),
    (0x337E, .decxcDirect 0x7E), (0x337F, .decxcPtr), (0x3392, .decxcPage 0x12), (0x347E, .subDirectA 0x7E),
    (0x347F, .subPtrC), (0x3492, .subPageA 0x12), (0x357E, .subcDirectA 0x7E), (0x357F, .subcPtrC),
    (0x3592, .subcPageA 0x12), (0x367E, .subADirect 0x7E), (0x367F, .subAC), (0x3692, .subAPage 0x12),
    (0x377E, .subcADirect 0x7E), (0x377F, .subcAC), (0x3792, .subcAPage 0x12)] = true := by decide

theorem test_decode_loop : readAll [
    (0x3800, .loopdecZero), (0x38FC, .loopdecRel 0xFC), (0x387F, .loopshrc), (0x3900, .loopzero),
    (0x39FE, .loopincRel 0xFE), (0x397F, .loopshlc)] = true := by decide

theorem test_decode_macro : readAll [
    (0x833C, .ldxAImm 0x3C), (0xAB21, .ldxADirect 0x21), (0xAB7F, .ldxAPtr), (0xABFF, .ldxAPage 0x7F)] = true := by decide

theorem test_decode_macro_words : readsAs false 0x4507 (.hmacro 5 0x07) = true ∧ readsAs true 0x6A10 (.macroEnd false 0x2A 0x10) = true ∧
    readsAs true 0xEA7F (.macroEnd true 0x2A 0x7F) = true := by decide

/-- `LD A,[5]`, bit by bit: opmsb 0, macro 0, OP 101010, xx 00000101 (R101, R210). -/
theorem test_decode_bits : readsAs false 0b0010101000000101 (.ldADirect 5) = true := by decide

/-! ### One step -/

/-- The state of the test vectors: every register 0, PC at 0x0100 (spec/95_test_vectors.md). -/
def start : State := { State.reset with pc := 0x100 }

/-- One step of the state, the word at its active counter and the bytes at their addresses. -/
def stepOn (s : State) (w : Nat) (cells : List Host.Cell) : Out :=
  step (State.withFetchWord { s with mem := cells.foldl (fun m c => Memory.write m c.1 c.2) s.mem } 16 w)

/-- A, B, C, ZF, CF and the active counter after a step that completed. -/
def seen (o : Out) : Option (Byte × Byte × Byte × Bool × Bool × Counter) :=
  match o with
  | .next t => some (t.a, t.b, t.c, t.zf, t.cf, ctr t)
  | .fault _ => none
  | .refused _ => none

/-- The byte at an address after a step that completed. -/
def byteAt (o : Out) (p : Nat) : Option Byte :=
  match o with
  | .next t => some (Memory.read t.mem p)
  | .fault _ => none
  | .refused _ => none

/-- A field of the state after a step that completed. -/
def field {α : Type} (f : State → α) (o : Out) : Option α :=
  match o with
  | .next t => some (f t)
  | .fault _ => none
  | .refused _ => none

/-- The reason of a step that was refused. -/
def reason (o : Out) : Option Refusal :=
  match o with
  | .next _ => none
  | .fault _ => none
  | .refused e => some e

theorem test_S31_load :
    reason (stepOn start 0x01C1 []) = some (.loadSaveUndescribed) := by decide

theorem test_S43_undefined_sub_code_05 :
    reason (stepOn start 0x0105 []) = some (.encoding (.undefinedSubcode 0x05)) := by decide

theorem test_S3_mulx :
    (fun o => seen o = some (0xFE, 0x00, 0x34, false, false, 0x102) ∧ byteAt o 0x0 = some 0x03)
    (stepOn { start with a := 0x12, c := 0x34 } 0x0100 [(0x0, 0x56)]) := by decide

theorem test_S6_ld_a_b :
    seen (stepOn { start with a := 0x01, b := 0x02 } 0x0101 []) = some (0x02, 0x02, 0x00, false, false, 0x102) := by decide

theorem test_S7_ld_b_a :
    seen (stepOn { start with a := 0x01, b := 0x02 } 0x0102 []) = some (0x01, 0x01, 0x00, false, false, 0x102) := by decide

theorem test_S8_swap :
    seen (stepOn { start with a := 0x01, b := 0x02 } 0x0103 []) = some (0x02, 0x01, 0x00, false, false, 0x102) := by decide

theorem test_S9_mul :
    seen (stepOn { start with a := 0xFF, c := 0xFF } 0x0104 []) = some (0x01, 0x00, 0xFE, false, false, 0x102) := by decide

theorem test_S11_ld_b_c :
    seen (stepOn { start with b := 0x01, c := 0x7C } 0x0120 []) = some (0x00, 0x7C, 0x7C, false, false, 0x102) := by decide

theorem test_S14_getpc :
    seen (stepOn { start with mf := true, pc := 0x102, mc := 0x204 } 0x0121 []) = some (0x00, 0x81, 0x00, false, false,
    0x206) := by decide

theorem test_S15_getmc :
    seen (stepOn { start with mf := true, pc := 0x102, mc := 0x204 } 0x0122 []) = some (0x01, 0x03, 0x00, false, false,
    0x206) := by decide

theorem test_S18_setpc :
    seen (stepOn { start with cfg := { Config.sdog with pcw := 9 }, a := 0xFF, b := 0xFF } 0x0124 []) = some (0xFF, 0xFF,
    0x00, false, false, 0x1FE) := by decide

theorem test_S20_setmc :
    (fun o => seen o = some (0x01, 0x08, 0x00, false, false, 0x210) ∧ field State.pc o = some 0x102)
    (stepOn { start with a := 0x01, b := 0x08, mf := true, pc := 0x102, mc := 0x204 } 0x0128 []) := by decide

theorem test_S21_usermode_1 :
    (fun o => seen o = some (0x00, 0x00, 0x00, false, false, 0x102) ∧ field State.uf o = some true)
    (stepOn start 0x0131 []) := by decide

theorem test_S24_offset_2 :
    (fun o => seen o = some (0x00, 0x00, 0x00, false, false, 0x102) ∧ field State.ofBits o = some 2)
    (stepOn start 0x0142 []) := by decide

theorem test_S27_getstat :
    seen (stepOn { start with ae := true, ef := true, ifBit := true, ic := 0x100 } 0x0151 []) = some (0x81, 0x00, 0x00,
    false, false, 0x102) := by decide

theorem test_S29_clear_1 :
    (fun o => seen o = some (0x00, 0x00, 0x00, false, false, 0x102) ∧ field State.ae o = some false)
    (stepOn { start with ae := true } 0x0161 []) := by decide

theorem test_S33_clc :
    seen (stepOn { start with zf := true, cf := true } 0x01C4 []) = some (0x00, 0x00, 0x00, true, false, 0x102) := by decide

theorem test_S34_pmemacc :
    (fun o => seen o = some (0x00, 0x00, 0x00, false, false, 0x102) ∧ field State.pacc o = some true)
    (stepOn start 0x01C8 []) := by decide

theorem test_S35_int_3 :
    (fun o => seen o = some (0x00, 0x00, 0x00, false, false, 0x26) ∧ field State.ifBit o = some true)
    (stepOn start 0x01D3 []) := by decide

theorem test_S40_inputa :
    (fun o => seen o = some (0x5A, 0x00, 0x03, false, false, 0x102) ∧ field State.io o = some [.input 3 0x5A])
    (stepOn { start with c := 0x03, portIn := [0x5A] } 0x01F1 []) := by decide

theorem test_S42_inout :
    (fun o => seen o = some (0x22, 0x11, 0x07, false, false, 0x102) ∧ field State.io o = some [.output 7 0x11, .input 7
    0x22])
    (stepOn { start with b := 0x11, c := 0x07, portIn := [0x22] } 0x01F3 []) := by decide

theorem test_M4_setflag_0x20 :
    (fun o => seen o = some (0x00, 0x00, 0x00, true, true, 0x102) ∧ field State.uf o = some true ∧ field State.ofBits o =
    some 3 ∧ byteAt o 0x20 = some 0x9D)
    (stepOn start 0x0520 [(0x20, 0x9D)]) := by decide

theorem test_M6_setflag_0x20 :
    (fun o => seen o = some (0x00, 0x00, 0x00, false, false, 0x302) ∧ field State.uf o = some false ∧ field State.ofBits
    o = some 0 ∧ byteAt o 0x1A0 = some 0x60)
    (stepOn { start with zf := true, cf := true, uf := true, ofBits := 3, pc := 0x300 } 0x0520 [(0x1A0, 0x60)]) := by decide

theorem test_M7_getflag_0x20 :
    (fun o => seen o = some (0x00, 0x00, 0x00, true, true, 0x302) ∧ byteAt o 0x120 = some 0x95)
    (stepOn { start with zf := true, cf := true, uf := true, ofBits := 2, pc := 0x300 } 0x0D20 [(0x120, 0xFF)]) := by decide

theorem test_M12_st_0x10_a :
    (fun o => seen o = some (0x55, 0x00, 0x00, false, false, 0x302) ∧ byteAt o 0x190 = some 0x55)
    (stepOn { start with a := 0x55, ofBits := 3, pc := 0x300 } 0x0610 [(0x190, 0x00)]) := by decide

theorem test_M13_st_3_b_a :
    (fun o => seen o = some (0x55, 0x21, 0x00, false, false, 0x102) ∧ byteAt o 0x321 = some 0x55)
    (stepOn { start with a := 0x55, b := 0x21 } 0x0683 [(0x321, 0x00)]) := by decide

theorem test_M18_zero_127 :
    (fun o => seen o = some (0x00, 0x00, 0x00, false, false, 0x302) ∧ byteAt o 0xFF = some 0x00)
    (stepOn { start with ofBits := 1, pc := 0x300 } 0x07FF [(0xFF, 0xAA)]) := by decide

theorem test_M20_st_a_b_c :
    (fun o => seen o = some (0x02, 0x03, 0x33, false, false, 0x102) ∧ byteAt o 0x203 = some 0x33)
    (stepOn { start with a := 0x02, b := 0x03, c := 0x33 } 0x0B7F [(0x203, 0x00)]) := by decide

theorem test_M24_ld_a_7 :
    (fun o => seen o = some (0x9C, 0x00, 0x00, false, false, 0x302) ∧ byteAt o 0x7 = some 0x9C)
    (stepOn { start with ofBits := 1, ifBit := true, ic := 0x300 } 0x2A07 [(0x7, 0x9C), (0x87, 0x11)]) := by decide

theorem test_M26_ld_a_0x12_b :
    (fun o => seen o = some (0xAB, 0x34, 0x00, false, false, 0x102) ∧ byteAt o 0x1234 = some 0xAB)
    (stepOn { start with a := 0x99, b := 0x34 } 0x2A92 [(0x1234, 0xAB)]) := by decide

theorem test_M27_ld_b_a_b :
    (fun o => seen o = some (0x12, 0xAB, 0x00, false, false, 0x102) ∧ byteAt o 0x1234 = some 0xAB)
    (stepOn { start with a := 0x12, b := 0x34 } 0x2B7F [(0x1234, 0xAB)]) := by decide

theorem test_M30_ld_c_0_b :
    (fun o => seen o = some (0x00, 0x07, 0x03, false, false, 0x302) ∧ byteAt o 0x7 = some 0x03)
    (stepOn { start with b := 0x07, ofBits := 3, pc := 0x300 } 0x2C80 [(0x7, 0x03), (0x187, 0x09)]) := by decide

theorem test_M32_stacp_a_b :
    (fun o => seen o = some (0x02, 0x00, 0xFF, false, false, 0x102) ∧ byteAt o 0x2FE = some 0x42)
    (stepOn { start with a := 0x02, b := 0xFF, c := 0xFE } 0x2D7F [(0x2FF, 0x42), (0x2FE, 0x00)]) := by decide

theorem test_M35_stab_5 :
    (fun o => seen o = some (0x04, 0x01, 0x00, false, false, 0x102) ∧ byteAt o 0x401 = some 0x3C)
    (stepOn { start with a := 0x04, b := 0x01 } 0x2E05 [(0x5, 0x3C), (0x401, 0x00)]) := by decide

theorem test_M36_stac_a_b :
    (fun o => seen o = some (0x02, 0x02, 0x03, false, false, 0x102) ∧ byteAt o 0x203 = some 0xE7)
    (stepOn { start with a := 0x02, b := 0x02, c := 0x03 } 0x2E7F [(0x202, 0xE7), (0x203, 0x00)]) := by decide

theorem test_M37_stabp_5_b :
    (fun o => seen o = some (0x04, 0x00, 0x00, false, false, 0x102) ∧ byteAt o 0x4FF = some 0x07)
    (stepOn { start with a := 0x04, b := 0xFF } 0x2F85 [(0x5FF, 0x07), (0x4FF, 0x00)]) := by decide

theorem test_M39_stzcp_a_b :
    (fun o => seen o = some (0x08, 0x01, 0x41, false, false, 0x302) ∧ byteAt o 0x40 = some 0x5A)
    (stepOn { start with a := 0x08, c := 0x40, ofBits := 3, pc := 0x300 } 0x2F7F [(0x800, 0x5A), (0x40, 0x00)]) := by decide

theorem test_L1_shl_0x10 :
    (fun o => seen o = some (0x00, 0x00, 0x00, true, true, 0x102) ∧ byteAt o 0x10 = some 0x02)
    (stepOn { start with zf := true } 0x0810 [(0x10, 0x81)]) := by decide

theorem test_L5_shr_2_b :
    (fun o => seen o = some (0x00, 0x05, 0x00, false, false, 0x102) ∧ byteAt o 0x205 = some 0x01)
    (stepOn { start with b := 0x05, cf := true } 0x0982 [(0x205, 0x02)]) := by decide

theorem test_L6_shlc_0x10 :
    (fun o => seen o = some (0x00, 0x00, 0x00, false, true, 0x102) ∧ byteAt o 0x10 = some 0x01)
    (stepOn { start with cf := true } 0x2810 [(0x10, 0x80)]) := by decide

theorem test_L8_shrc_0x10 :
    (fun o => seen o = some (0x00, 0x00, 0x00, false, true, 0x102) ∧ byteAt o 0x10 = some 0x80)
    (stepOn { start with cf := true } 0x2910 [(0x10, 0x01)]) := by decide

theorem test_L11_and_a_b_c :
    (fun o => seen o = some (0x03, 0x04, 0x3C, false, false, 0x102) ∧ byteAt o 0x304 = some 0x30)
    (stepOn { start with a := 0x03, b := 0x04, c := 0x3C, zf := true } 0x0A7F [(0x304, 0xF0)]) := by decide

theorem test_L15_xor_2_b_a :
    (fun o => seen o = some (0x5A, 0x04, 0x00, true, false, 0x102) ∧ byteAt o 0x204 = some 0x00)
    (stepOn { start with a := 0x5A, b := 0x04 } 0x0C82 [(0x204, 0x5A)]) := by decide

theorem test_L17_or_a_b_c :
    (fun o => seen o = some (0x03, 0x04, 0x01, false, false, 0x102) ∧ byteAt o 0x304 = some 0x81)
    (stepOn { start with a := 0x03, b := 0x04, c := 0x01 } 0x0E7F [(0x304, 0x80)]) := by decide

theorem test_L19_and_a_c :
    seen (stepOn { start with a := 0x0F, c := 0xF0 } 0x3A7F []) = some (0x00, 0x00, 0xF0, true, false, 0x102) := by decide

theorem test_L25_xor_a_0xff :
    seen (stepOn { start with a := 0x0F, cf := true } 0x3DFF []) = some (0xF0, 0x00, 0x00, false, true, 0x102) := by decide

theorem test_L29_or_a_0x7f :
    seen (stepOn { start with a := 0x80, zf := true } 0x3F7F []) = some (0xFF, 0x00, 0x00, false, false, 0x102) := by decide

theorem test_A1_inc_0x10 :
    (fun o => seen o = some (0x00, 0x00, 0x00, true, true, 0x102) ∧ byteAt o 0x10 = some 0x00)
    (stepOn start 0x2010 [(0x10, 0xFF)]) := by decide

theorem test_A4_incc_0x11 :
    (fun o => seen o = some (0x00, 0x00, 0x00, false, false, 0x102) ∧ byteAt o 0x11 = some 0x13)
    (stepOn { start with cf := true } 0x2111 [(0x11, 0x12)]) := by decide

theorem test_A7_incx_6 :
    (fun o => seen o = some (0xFF, 0xAA, 0x00, true, true, 0x102) ∧ byteAt o 0x6 = some 0x00)
    (stepOn { start with a := 0xAA, b := 0xBB } 0x2206 [(0x6, 0xFF)]) := by decide

theorem test_A10_incxc_7 :
    (fun o => seen o = some (0x12, 0xFF, 0x00, false, false, 0x102) ∧ byteAt o 0x7 = some 0x13)
    (stepOn { start with a := 0xFF, cf := true } 0x2307 [(0x7, 0x12)]) := by decide

theorem test_A13_add_a_b_c :
    (fun o => seen o = some (0x03, 0x04, 0x01, true, true, 0x102) ∧ byteAt o 0x304 = some 0x00)
    (stepOn { start with a := 0x03, b := 0x04, c := 0x01 } 0x247F [(0x304, 0xFF)]) := by decide

theorem test_A15_addc_0x10_a :
    (fun o => seen o = some (0x00, 0x00, 0x00, true, true, 0x102) ∧ byteAt o 0x10 = some 0x00)
    (stepOn { start with cf := true } 0x2510 [(0x10, 0xFF)]) := by decide

theorem test_A17_add_a_0x10 :
    (fun o => seen o = some (0x00, 0x00, 0x00, true, true, 0x102) ∧ byteAt o 0x10 = some 0x90)
    (stepOn { start with a := 0x70 } 0x2610 [(0x10, 0x90)]) := by decide

theorem test_A20_addc_a_0x10 :
    (fun o => seen o = some (0x00, 0x00, 0x00, true, true, 0x102) ∧ byteAt o 0x10 = some 0xFE)
    (stepOn { start with a := 0x01, cf := true } 0x2710 [(0x10, 0xFE)]) := by decide

theorem test_A22_dec_0x10 :
    (fun o => seen o = some (0x00, 0x00, 0x00, false, true, 0x102) ∧ byteAt o 0x10 = some 0xFF)
    (stepOn start 0x3010 [(0x10, 0x00)]) := by decide

theorem test_A24_dec_0x7c :
    (fun o => seen o = some (0x00, 0x00, 0x00, false, false, 0x102) ∧ byteAt o 0x7C = some 0xFF)
    (stepOn start 0x307C [(0x7C, 0x00)]) := by decide

theorem test_A28_decc_0x11 :
    (fun o => seen o = some (0x00, 0x00, 0x00, false, true, 0x102) ∧ byteAt o 0x11 = some 0xFF)
    (stepOn { start with cf := true } 0x3111 [(0x11, 0x00)]) := by decide

theorem test_A31_decx_6 :
    (fun o => seen o = some (0x00, 0xAA, 0x00, false, true, 0x102) ∧ byteAt o 0x6 = some 0xFF)
    (stepOn { start with a := 0xAA, b := 0xBB } 0x3206 [(0x6, 0x00)]) := by decide

theorem test_A32_decxc_7 :
    (fun o => seen o = some (0x20, 0x00, 0x00, false, false, 0x102) ∧ byteAt o 0x7 = some 0x1F)
    (stepOn { start with b := 0x55, cf := true } 0x3307 [(0x7, 0x20)]) := by decide

theorem test_A34_sub_a_b_c :
    (fun o => seen o = some (0x03, 0x04, 0x10, true, false, 0x102) ∧ byteAt o 0x304 = some 0x00)
    (stepOn { start with a := 0x03, b := 0x04, c := 0x10, cf := true } 0x347F [(0x304, 0x10)]) := by decide

theorem test_A36_subc_0x10_a :
    (fun o => seen o = some (0xFF, 0x00, 0x00, true, true, 0x102) ∧ byteAt o 0x10 = some 0x00)
    (stepOn { start with a := 0xFF, cf := true } 0x3510 [(0x10, 0x00)]) := by decide

theorem test_A38_sub_a_0x10 :
    (fun o => seen o = some (0xF9, 0x00, 0x00, false, true, 0x102) ∧ byteAt o 0x10 = some 0x03)
    (stepOn { start with a := 0x0A } 0x3610 [(0x10, 0x03)]) := by decide

theorem test_A40_subc_a_0x10 :
    (fun o => seen o = some (0x06, 0x00, 0x00, false, false, 0x102) ∧ byteAt o 0x10 = some 0x0A)
    (stepOn { start with a := 0x03, cf := true } 0x3710 [(0x10, 0x0A)]) := by decide

theorem test_B5_jmpc0_a_b :
    seen (stepOn { start with a := 0x01, b := 0x80 } 0x107A []) = some (0x01, 0x80, 0x00, false, false, 0x300) := by decide

theorem test_B3_jmp_121 :
    seen (stepOn { start with cfg := { Config.sdog with jsig121Option := true } } 0x1079 []) = some (0x00, 0x00, 0x00,
    false, false, 0x102) := by decide

theorem test_B10_op_10_xx_7e :
    reason (stepOn start 0x107E []) = some (.encoding (.jumpOperand126 0x10)) := by decide

theorem test_B14_jmp_127_b :
    seen (stepOn { start with b := 0xFF } 0x10FF []) = some (0x00, 0xFF, 0x00, false, false, 0xFFFE) := by decide

theorem test_B21_bal_a_b :
    seen (stepOn { start with a := 0x01, b := 0x80, pc := 0x40 } 0x117F []) = some (0x00, 0x21, 0x00, false, false, 0x300) := by decide

theorem test_B22_bal_2_b :
    seen (stepOn { start with a := 0x77, b := 0x10 } 0x1182 []) = some (0x00, 0x81, 0x00, false, false, 0x420) := by decide

theorem test_B31_jr_b :
    seen (stepOn { start with b := 0xFE } 0x1280 []) = some (0x00, 0xFE, 0x00, false, false, 0xFE) := by decide

theorem test_B34_jr_3 :
    seen (stepOn { start with pc := 0x2 } 0x12FD []) = some (0x00, 0x00, 0x00, false, false, 0x1FFFE) := by decide

theorem test_B36_br_b :
    seen (stepOn { start with a := 0x55, b := 0x03 } 0x1380 []) = some (0x00, 0x81, 0x00, false, false, 0x108) := by decide

theorem test_B40_brc0_2 :
    seen (stepOn { start with a := 0x55, b := 0x66 } 0x1502 []) = some (0x00, 0x81, 0x00, false, false, 0x106) := by decide

theorem test_B46_brz0_b :
    seen (stepOn { start with a := 0x55, b := 0x02 } 0x1980 []) = some (0x00, 0x81, 0x00, false, false, 0x106) := by decide

theorem test_B53_bal_0x20 :
    seen (stepOn { start with a := 0x55, b := 0x66, ifBit := true, pc := 0x102, ic := 0x24 } 0x1120 []) = some (0x00,
    0x13, 0x00, false, false, 0x40) := by decide

theorem test_K1_loopdec_4 :
    seen (stepOn { start with b := 0x10, c := 0x02, pc := 0x108 } 0x38FC []) = some (0x00, 0x0F, 0x01, false, false,
    0x102) := by decide

theorem test_K5_loopinc_2 :
    seen (stepOn { start with b := 0xFF, c := 0x01, pc := 0x200 } 0x39FE []) = some (0x00, 0x00, 0x00, false, false,
    0x1FE) := by decide

theorem test_K11_loopdec_0 :
    seen (stepOn { start with b := 0x10, c := 0x02 } 0x3800 []) = some (0x00, 0x0F, 0x01, false, false, 0x100) := by decide

theorem test_K15_loopshrc :
    (fun o => seen o = some (0x03, 0x00, 0x00, false, true, 0x100) ∧ byteAt o 0x301 = some 0x80)
    (stepOn { start with a := 0x03, b := 0x01, c := 0x01, cf := true } 0x387F [(0x301, 0x01)]) := by decide

theorem test_K18_loopzero :
    (fun o => seen o = some (0x03, 0x00, 0x01, false, false, 0x100) ∧ byteAt o 0x3FF = some 0x00)
    (stepOn { start with a := 0x03, b := 0xFF, c := 0x02 } 0x3900 [(0x3FF, 0xAA)]) := by decide

theorem test_K21_loopshlc :
    (fun o => seen o = some (0x03, 0x01, 0x00, false, true, 0x100) ∧ byteAt o 0x300 = some 0x00)
    (stepOn { start with a := 0x03, c := 0x01 } 0x397F [(0x300, 0x80)]) := by decide

theorem test_P2_in_a_b :
    (fun o => seen o = some (0x03, 0x04, 0xFF, false, false, 0x102) ∧ byteAt o 0x304 = some 0x01 ∧ field State.io o =
    some [.input 255 0x01])
    (stepOn { start with a := 0x03, b := 0x04, c := 0xFF, portIn := [0x01] } 0x1D7F [(0x304, 0x00)]) := by decide

theorem test_P5_out_a_b :
    (fun o => seen o = some (0x02, 0x00, 0x01, false, false, 0x102) ∧ byteAt o 0x200 = some 0x48 ∧ field State.io o =
    some [.output 1 0x48])
    (stepOn { start with a := 0x02, c := 0x01 } 0x1E7F [(0x200, 0x48)]) := by decide

theorem test_P7_in_a_b :
    (fun o => seen o = some (0x03, 0x04, 0x02, false, false, 0x102) ∧ field State.ae o = some true ∧ byteAt o 0x304 =
    some 0x99 ∧ field State.io o = some [.input 2 0x01])
    (stepOn { start with a := 0x03, b := 0x04, c := 0x02, uf := true, portIn := [0x01] } 0x1D7F [(0x304, 0x99)]) := by decide

theorem test_F1_ld_a_a_b :
    (fun o => seen o = some (0x56, 0x35, 0x00, false, false, 0x102) ∧ byteAt o 0x1234 = some 0x56)
    (stepOn { start with a := 0x12, b := 0x34 } 0xAA7F [(0x1234, 0x56)]) := by decide

theorem test_F3_ldx_a_0x12 :
    seen (stepOn { start with a := 0x34, b := 0x99 } 0x8312 []) = some (0x12, 0x34, 0x00, false, false, 0x102) := by decide

theorem test_F5_ldx_a_a_b :
    (fun o => seen o = some (0x56, 0x03, 0x00, false, false, 0x102) ∧ byteAt o 0x304 = some 0x56)
    (stepOn { start with a := 0x03, b := 0x04 } 0xAB7F [(0x304, 0x56)]) := by decide

theorem test_F14_stacp_3_b :
    (fun o => seen o = some (0x02, 0x10, 0x21, false, false, 0x102) ∧ byteAt o 0x220 = some 0x99)
    (stepOn { start with a := 0x02, b := 0x10, c := 0x20 } 0xAD83 [(0x310, 0x99), (0x220, 0x00)]) := by decide

theorem test_F23_incx_6 :
    reason (stepOn start 0xA206 [(0x6, 0x00)]) = some (.encoding (.opmsbOnBWriter 0x22 0x06)) := by decide

theorem test_H1_hmacro_5_0x07 :
    (fun o => seen o = some (0x01, 0x02, 0x07, false, false, 0x250) ∧ field State.mf o = some true ∧ field State.pc o =
    some 0x102 ∧ byteAt o 0x0 = some 0x07)
    (stepOn { start with a := 0x01, b := 0x02, c := 0x03 } 0x4507 [(0x0, 0xAA)]) := by decide

theorem test_H7_end_add_a_c :
    (fun o => seen o = some (0x00, 0x00, 0x01, true, true, 0x102) ∧ field State.mf o = some false)
    (stepOn { start with a := 0xFF, c := 0x01, mf := true, pc := 0x102, mc := 0x254 } 0x667F []) := by decide

theorem test_H9_end_jmp_8 :
    reason (stepOn { start with mf := true, pc := 0x102, mc := 0x254 } 0x5008 []) = some (.macroEndForbidden) := by decide

theorem test_H12_hmacro_5_0x07 :
    reason (stepOn { start with ifBit := true, ic := 0x100 } 0x4507 []) = some (.encoding .macroInInterrupt) := by decide

theorem test_X3_boundary_then_nop :
    (fun o => seen o = some (0x01, 0x02, 0x03, true, true, 0x20) ∧ field State.ifBit o = some true)
    (stepOn
    { start with a := 0x01, b := 0x02, c := 0x03, zf := true, cf := true, uf := true, ofBits := 2, ef := true, lines := ⟨true, true, false⟩ }
    0x0000 []) := by decide

theorem test_X6_boundary_then_nop :
    (fun o => seen o = some (0x00, 0x00, 0x00, false, false, 0x3E) ∧ field State.ifBit o = some true)
    (stepOn { start with mf := true, ef := true, pc := 0x102, mc := 0x254, lines := ⟨false, true, false⟩ } 0x0000 []) := by decide

theorem test_X10_reti_0x20 :
    (fun o => seen o = some (0x00, 0x00, 0x00, true, true, 0x102) ∧ field State.uf o = some true ∧ field State.ofBits o =
    some 2 ∧ field State.ifBit o = some false ∧ byteAt o 0x20 = some 0x95)
    (stepOn { start with ef := true, ifBit := true, pc := 0x102, ic := 0x30 } 0x1F20 [(0x20, 0x95)]) := by decide

theorem test_X11_reti_0x20 :
    (fun o => seen o = some (0x00, 0x00, 0x00, true, false, 0x102) ∧ field State.ofBits o = some 0 ∧ field State.ifBit o
    = some false ∧ byteAt o 0x20 = some 0x01)
    (stepOn { start with cf := true, ofBits := 3, ifBit := true, pc := 0x102, ic := 0x30 } 0x1F20 [(0x20, 0x01),
    (0x1A0, 0x80)]) := by decide

theorem test_X18_ld_a_a_b :
    (fun o => seen o = some (0x99, 0x00, 0x00, false, false, 0x102) ∧ byteAt o 0x800 = some 0x99)
    (stepOn { start with a := 0x08, uf := true } 0x2A7F [(0x800, 0x99)]) := by decide

theorem test_X21_st_3_b_a :
    (fun o => seen o = some (0x55, 0x04, 0x00, false, false, 0x102) ∧ field State.ae o = some true ∧ byteAt o 0x304 =
    some 0x99)
    (stepOn { start with a := 0x55, b := 0x04, uf := true } 0x0683 [(0x304, 0x99)]) := by decide

theorem test_X23_stacp_9_b :
    (fun o => seen o = some (0x03, 0x05, 0x06, false, false, 0x102) ∧ field State.ae o = some true ∧ byteAt o 0x305 =
    some 0x99)
    (stepOn { start with a := 0x03, b := 0x04, c := 0x05, uf := true } 0x2D89 [(0x904, 0x11), (0x305, 0x99)]) := by decide

theorem test_X24_stzcp_a_b :
    (fun o => seen o = some (0x09, 0x05, 0x06, false, false, 0x102) ∧ byteAt o 0x5 = some 0x11)
    (stepOn { start with a := 0x09, b := 0x04, c := 0x05, uf := true } 0x2F7F [(0x904, 0x11), (0x5, 0x99)]) := by decide

theorem test_X29_ld_a_0x10 :
    (fun o => seen o = some (0x11, 0x00, 0x00, false, false, 0x102) ∧ field State.pacc o = some false ∧ byteAt o 0x10 =
    some 0x11)
    (stepOn { start with cfg := { Config.sdog with dataBase := 0x10000, memoryModel := .split }, pacc := true }
    0x2A10 [(0x10, 0x11), (0x10010, 0x22)]) := by decide

theorem test_X30_st_0x10_a :
    (fun o => seen o = some (0x55, 0x00, 0x00, false, false, 0x102) ∧ field State.pacc o = some false ∧ byteAt o 0x10 =
    some 0x55)
    (stepOn
    { start with cfg := { Config.sdog with dataBase := 0x10000, memoryModel := .split }, a := 0x55, pacc := true }
    0x0610 [(0x10, 0x11), (0x10010, 0x22)]) := by decide

theorem test_X31_st_0x10_a :
    (fun o => seen o = some (0x55, 0x00, 0x00, false, false, 0x102) ∧ field State.pacc o = some false ∧ byteAt o 0x10 =
    some 0x11)
    (stepOn
    { start with cfg := { Config.sdog with dataBase := 0x10000, memoryModel := .split }, a := 0x55, uf := true, pacc := true }
    0x0610 [(0x10, 0x11), (0x10010, 0x22)]) := by decide

/-! ### The hypotheses of the statements are met -/

/-- The start state in user mode (UF = 1). -/
def inUserMode : State := { start with uf := true }

/-- The start state, just after a PMEMACC in user mode. -/
def afterPmemacc : State := { start with uf := true, paccNow := true }

/-- A state whose protected addresses end inside page 8, at 0x0880. -/
def oddLimit : State := { start with cfg := { Config.sdog with protLimit := 0x880 }, uf := true, a := 8 }

/-- Operands of each form at the ends of their ranges. -/
def sampleOperands : List Operand := [.direct 0, .direct 126, .ptr, .page 0, .page 127]

theorem test_witness_DecodeOfEncode :
    ((Instr.jmpDirect 121).wf = true ∧ DecodableIn Config.sdog false false (.jmpDirect 121)) ∧
    ((Instr.ldxAImm 0xFF).wf = true ∧ DecodableIn Config.sdog true false (.ldxAImm 0xFF)) ∧
    ((Instr.hmacro 63 0xFF).wf = true ∧ DecodableIn Config.sdog false false (.hmacro 63 0xFF)) ∧
    ((Instr.macroEnd true 63 0xFF).wf = true ∧ DecodableIn Config.sdog true false (.macroEnd true 63 0xFF)) :=
  ⟨⟨rfl, trivial⟩, ⟨rfl, rfl⟩, ⟨rfl, rfl, rfl, rfl⟩, rfl, rfl, rfl, rfl⟩

theorem test_witness_DecodedWordEncodesBack :
    decode Config.sdog false false 0xAA7F = .ok ⟨.ldAPtr, .inc⟩ ∧ decode Config.sdog false false 0x107D = .ok ⟨.jmpZ1, .own⟩ :=
  ⟨rfl, rfl⟩

theorem test_witness_FastModeClasses :
    Config.sdog.opmsbMode = .fast ∧ decodeOrdinary 0x2A 0x7F = .ok .ldAPtr ∧ decodeOrdinary 0x0F 0xFF = .error (.unusedOpcode 0x0F) ∧
    isFastForbidden .swap = true ∧ decodeOrdinary 0x01 0x03 = .ok .swap :=
  ⟨rfl, rfl, rfl, rfl, rfl⟩

theorem test_witness_WordsWithNoMeaningAreRefused :
    (macroOf 0x8000 = false ∧ opmsbOf 0x8000 = true ∧ { Config.sdog with opmsbMode := .debug }.opmsbMode ≠ .fast) ∧
    (macroOf 0x4000 = true ∧ { Config.sdog with extOpcodes := true }.extOpcodes = true) ∧
    (macroOf 0x7FFF = true ∧ Config.sdog.extOpcodes = false) ∧ (macroOf 0xC000 = true ∧ opmsbOf 0xC000 = true) ∧
    (macroOf 0x8103 = false ∧ opmsbOf 0x8103 = true ∧ Config.sdog.opmsbMode = .fast ∧
      FastForbiddenPair (opOf 0x8103) (xxOf 0x8103) ∧ ¬UndefinedPair (opOf 0x8103) (xxOf 0x8103)) := by
  have h : ¬UndefinedPair 0x01 0x03 := by simp [UndefinedPair]
  exact ⟨by decide, by decide, by decide, by decide, rfl, rfl, rfl, .inl ⟨rfl, .inr (.inl rfl)⟩, h⟩

theorem test_witness_StepRunsTheDecodedInstruction :
    (FetchSettled start ∧ decode start.cfg start.mf start.ifBit (wordAtCounter start) = .ok ⟨.nop 0, .own⟩) ∧
    (FetchSettled { start with mem := [(0x101, 0x0F)] } ∧
      decode start.cfg false false (wordAtCounter { start with mem := [(0x101, 0x0F)] }) = .error (.unusedOpcode 0x0F)) ∧
    (let s := { start with cfg := { Config.sdog with memBytes := 256 } }
     interruptAccepted s = false ∧ s.cfg.memBytes ≤ (ctr s).toNat) ∧
    (let s := { start with cfg := { Config.sdog with memBytes := 257 } }
     interruptAccepted s = false ∧ (ctr s).toNat < s.cfg.memBytes ∧ s.cfg.memBytes ≤ (ctrSecond s).toNat) :=
  ⟨⟨by decide, rfl⟩, ⟨by decide, rfl⟩, by decide, by decide⟩

theorem test_witness_FetchMaySeeTheOldByte :
    (0 < start.cfg.memBytes ∧ { start with stale := some (0, 0x55) }.stale = some (0, 0x55)) ∧
    (131071 < start.cfg.memBytes ∧ staleByte start 131071 = none) := by decide

theorem test_witness_StepTakesTheInterrupt :
    (start.ifBit = false ∧ { start with ef := true }.ef = true) ∧
    ({ start with lines := ⟨true, false, false⟩ }.lines.int0 = true) ∧ ({ start with lines := ⟨false, true, false⟩ }.lines.int1 = true) ∧
    (start.cfg.userMode = true ∧ { start with ae := true }.ae = true) ∧
    (start.ef = false ∧ { start with ifBit := true }.ifBit = true) := by decide

theorem test_witness_ActiveCounterAdvances :
    { start with ifBit := true }.ifBit = true ∧ ({ start with mf := true }.ifBit = false ∧ { start with mf := true }.mf = true) ∧
    (start.ifBit = false ∧ start.mf = false) := by decide

theorem test_witness_DataAddresses :
    { start with ifBit := true }.ifBit = true ∧ start.ifBit = false ∧ start.cfg.memoryModel = .tiny ∧
    { start with paccNow := true }.paccNow = true ∧
    ({ Config.sdog with memoryModel := .split }.memoryModel = .split ∧ start.paccNow = false) := by decide

theorem test_witness_ResetStateMeetsTheInvariant :
    ConfigOk Config.sdog ∧ ConfigOk { Config.sdog with pcw := 9, resetPc := 510 } := by decide

theorem test_witness_EveryStepKeepsTheInvariant : Inv start ∧ ∃ t, step start = .next t := ⟨by decide, _, rfl⟩

theorem test_witness_EveryStepTakesFourCyclesAndKeepsTheParameters : ∃ t, step start = .next t := ⟨_, rfl⟩

theorem test_witness_FlagsAreWrittenByTheInstructionsOfTheTable :
    (∃ t, exec (.zero 0) start = .next t) ∧
    (∃ t, exec (.incDirect 0) { start with mem := [(0, 0xFF)] } = .next t ∧ t.zf ≠ start.zf ∧ t.cf ≠ start.cf) ∧
    (∃ t, exec (.hmacro 0 0) start = .next t ∧ t.mf ≠ start.mf) ∧
    (∃ t, exec (.usermode 1) start = .next t ∧ t.uf ≠ start.uf) ∧ (∃ t, exec (.offset 3) start = .next t ∧ t.ofBits ≠ start.ofBits) :=
  ⟨⟨_, rfl⟩, ⟨_, rfl, by decide, by decide⟩, ⟨_, rfl, by decide⟩, ⟨_, rfl, by decide⟩, _, rfl, by decide⟩

theorem test_witness_RegistersAreWrittenByTheInstructionsOfTheList :
    (∃ t, exec .swap { start with a := 1 } = .next t ∧ t.a ≠ 1 ∧ t.b ≠ 0) ∧
    (∃ t, exec .mul { start with a := 0xFF, c := 0xFF } = .next t ∧ t.c ≠ 0xFF) :=
  ⟨⟨_, rfl, by decide, by decide⟩, _, rfl, by decide⟩

theorem test_witness_ModeBitsAreWrittenByTheirInstructions :
    (∃ t, exec .enable start = .next t ∧ t.ef ≠ start.ef) ∧ (∃ t, exec .ldAPtr inUserMode = .next t ∧ t.ae ≠ start.ae) ∧
    (∃ t, exec (.clear 1) { start with ae := true } = .next t ∧ t.ae ≠ true) ∧
    (∃ t, exec (.int 15) start = .next t ∧ t.ifBit ≠ start.ifBit) ∧
    (∃ t, exec (.reti 126) { start with ifBit := true } = .next t ∧ t.ifBit ≠ true) ∧
    (∃ t, exec .pmemacc start = .next t ∧ t.pacc ≠ start.pacc) :=
  ⟨⟨_, rfl, by decide⟩, ⟨_, rfl, by decide⟩, ⟨_, rfl, by decide⟩, ⟨_, rfl, by decide⟩, ⟨_, rfl, by decide⟩, _, rfl, by decide⟩

theorem test_witness_InactiveCountersKeepTheirValues :
    (∃ t, exec .setpc { start with mf := true } = .next t ∧ t.pc ≠ start.pc) ∧
    (∃ t, exec .setmc { start with a := 1 } = .next t ∧ t.mc ≠ start.mc) ∧ (∃ t, exec (.int 0) start = .next t ∧ t.ic ≠ start.ic) :=
  ⟨⟨_, rfl, by decide⟩, ⟨_, rfl, by decide⟩, _, rfl, by decide⟩

theorem test_witness_OtherInstructionsLeaveMemoryAlone :
    storesMemory (.ldADirect 126) = false ∧ isMacroEnd (.ldADirect 126) = false ∧ ∃ t, exec (.ldADirect 126) start = .next t :=
  ⟨rfl, rfl, _, rfl⟩

theorem test_witness_UserModeCannotObserveProtectedMemory :
    inUserMode.cfg.userMode = true ∧ inUserMode.uf = true ∧ AgreeUnprotected inUserMode { inUserMode with mem := [(0x7FF, 0x53)] } ∧
    Memory.read inUserMode.mem 0x7FF ≠ Memory.read [(0x7FF, 0x53)] 0x7FF ∧
    (∃ t, exec (.zero 127) inUserMode = .next t) ∧ 512 ≤ (0x200 : DataAddr).toNat ∧ (0x7FF : DataAddr).toNat < inUserMode.cfg.protLimit := by
  refine ⟨rfl, rfl, ⟨rfl, fun p hp => ?_⟩, by decide, ⟨_, rfl⟩, by decide, by decide⟩
  have hne : 0x7FF ≠ p := Ne.symm (hp 0x7FF (by decide) (by decide))
  simp [Memory.read, inUserMode, start, State.reset, State.resetWith, hne]

theorem test_witness_IntEntersTheInterruptByItsRule :
    start.ifBit = false ∧ { start with ifBit := true }.ifBit = true ∧ 9 ≤ start.cfg.pcw ∧ ∃ t, exec (.int 3) start = .next t :=
  ⟨rfl, rfl, by decide, _, rfl⟩

theorem test_witness_ModeAndStatusInstructionsComplete :
    ((1 : BitVec 4).toNat ≤ 1 ∧ 1 < (2 : BitVec 4).toNat) ∧ ((3 : BitVec 4).toNat ≤ 3 ∧ 3 < (4 : BitVec 4).toNat) ∧
    (0 : BitVec 4) ≠ 1 ∧ start.cfg.hasPmemacc = true ∧ { Config.sdog with hasPmemacc := false }.hasPmemacc = false := by decide

theorem test_witness_IdentificationInstructionsComplete :
    (start.cfg.versionValue = none ∧ start.cfg.idValue = none ∧ start.cfg.cpuinfoValue = none) ∧
    { Config.sdog with versionValue := some 1 }.versionValue = some 1 ∧ { Config.sdog with idValue := some 2 }.idValue = some 2 ∧
    { Config.sdog with cpuinfoValue := some 3 }.cpuinfoValue = some 3 := by decide

theorem test_witness_MultiplicationsComplete :
    (start.cfg.hasMul = true ∧ { Config.sdog with hasMul := false }.hasMul = false) ∧
    (start.cfg.hasMulx = true ∧ Installed start (windowAddr start 0) ∧ writeSuppressed start = false) ∧
    (afterPmemacc.cfg.hasMulx = true ∧ Installed afterPmemacc (windowAddr afterPmemacc 0) ∧ writeSuppressed afterPmemacc = true) ∧
    { Config.sdog with hasMulx := false }.hasMulx = false := by decide

theorem test_witness_LogicToAComplete :
    (∀ o ∈ sampleOperands, SourceReadable start o) ∧ SourceReadable inUserMode .ptr ∧ SourceReadable inUserMode (.page 8) := by decide

theorem test_witness_PortInstructionsComplete :
    { start with portIn := [0x5A] }.portIn = 0x5A :: [] ∧ start.portIn = [] ∧ ∀ o ∈ sampleOperands, Writable start o ∧ Readable start o := by
  decide

theorem test_witness_RetiReturnsFromTheInterrupt :
    start.ifBit = false ∧
    (let s := { start with ifBit := true }; s.ifBit = true ∧ Installed s (ea s (.direct 126)) ∧
      (operandByte s (.direct 126)).getLsbD 1 = s.mf) ∧
    (let s := { start with ifBit := true, mf := true }; Installed s (ea s (.direct 0)) ∧
      (operandByte s (.direct 0)).getLsbD 1 ≠ s.mf) := by decide

theorem test_witness_FlagRegisterTransfersComplete :
    (∀ o ∈ sampleOperands, Writable start o ∧ Readable start o ∧ (operandByte start o).getLsbD 1 = start.mf) ∧
    (let s := { start with mf := true }; Readable s .ptr ∧ (operandByte s .ptr).getLsbD 1 ≠ s.mf) := by decide

theorem test_witness_StoresComplete : ∀ o ∈ sampleOperands, Writable start o := by decide

theorem test_witness_LoadsComplete : ∀ o ∈ sampleOperands, Readable start o := by decide

theorem test_witness_CopiesComplete :
    StoreReaches start (addrAC start) ∧ StoreReaches start (pair start.a start.b) ∧ (∀ o ∈ sampleOperands, Readable start o) ∧
    Installed start (addrC start) ∧ writeSuppressed start = false := by decide

theorem test_witness_ShiftsComplete : ∀ o ∈ sampleOperands, Writable start o := by decide

theorem test_witness_LogicToMemoryComplete : ∀ o ∈ sampleOperands, Writable { start with a := 0xFF, b := 0xFF } o := by decide

theorem test_witness_IncrementsAndDecrementsComplete :
    ∀ o ∈ sampleOperands ++ [.direct 123, .direct 124, .direct 125], Writable start o := by decide

theorem test_witness_AddAndSubtractToMemoryComplete : ∀ o ∈ sampleOperands, Writable { start with c := 0xFF, cf := true } o := by
  decide

theorem test_witness_AddAndSubtractToAComplete : ∀ o ∈ sampleOperands, SourceReadable { start with a := 0xFF, cf := true } o := by
  decide

theorem test_witness_ExchangeFormsComplete : ∀ o ∈ sampleOperands, Writable { start with cf := true } o := by decide

theorem test_witness_LoopsWithOffsetComplete : { start with c := 1 }.c ≠ 0 ∧ start.c = 0 := by decide

theorem test_witness_LoopsWithoutOffsetComplete :
    (start.cfg.loop0Repeat = .repeatSelf ∧ Writable start .ptr) ∧
    (let s := { start with cfg := { Config.sdog with loop0Repeat := .fallthrough }, c := 1 }
     s.cfg.loop0Repeat = .fallthrough ∧ Writable s .ptr) ∧
    { Config.sdog with loop0Repeat := .refuse }.loop0Repeat = .refuse := by decide

theorem test_witness_HardMacroEntryCompletes :
    (start.ifBit = false ∧ start.mf = false ∧ Installed start (windowAddr start 0) ∧ writeSuppressed start = false) ∧
    (afterPmemacc.ifBit = false ∧ afterPmemacc.mf = false ∧ writeSuppressed afterPmemacc = true) ∧
    { start with ifBit := true }.ifBit = true ∧ ({ start with mf := true }.ifBit = false ∧ { start with mf := true }.mf = true) := by
  decide

theorem test_witness_HardMacroEndRunsItsInstruction :
    (let s := { start with mf := true }
     s.ifBit = false ∧ s.mf = true ∧ endForbidden 0x2A 0x7F = false ∧ ∃ d t, decodeUnmacroed s.cfg true 0x2A 0x7F = .ok d ∧ exec d.instr s = .next t) ∧
    (endForbidden 0x10 0 = true ∧ endForbidden 0x1B 0 = true ∧ endForbidden 0x01 0xDF = true ∧ endForbidden 0x0F 0 = false) ∧
    (let s := { start with mf := true }
     (decodeUnmacroed s.cfg false 0x01 0xC1 = .ok ⟨.load, .own⟩ ∧ endForbidden 0x01 0xC1 = false ∧ exec .load s = .refused .loadSaveUndescribed) ∧
     decodeUnmacroed s.cfg false 0x0F 0 = .error (.unusedOpcode 0x0F) ∧ decodeUnmacroed s.cfg false 0x12 0 = .ok ⟨.jrRel 0, .own⟩) ∧
    (start.ifBit = false ∧ start.mf = false ∧ { start with ifBit := true }.ifBit = true) :=
  ⟨⟨rfl, rfl, rfl, _, _, rfl, rfl⟩, by decide, ⟨⟨rfl, rfl, rfl⟩, rfl, rfl⟩, by decide⟩

theorem test_witness_ViolatingReadsRaiseAndDeliverAnyByte :
    operandViolates inUserMode .ptr = true ∧ operandViolates inUserMode (.page 0) = true ∧
    operandViolates { inUserMode with b := 0xFF } (.page 7) = true ∧ operandViolates inUserMode (.page 8) = false := by decide

theorem test_witness_ViolatingModificationsStoreNothing :
    operandViolates inUserMode .ptr = true ∧ operandViolates { inUserMode with b := 0xFF } (.page 7) = true ∧
    inUserMode.cfg.loop0Repeat = .repeatSelf ∧ inUserMode.c = 0 ∧
    (let s := { inUserMode with cfg := { Config.sdog with loop0Repeat := .fallthrough }, c := 1 }
     operandViolates s .ptr = true ∧ s.cfg.loop0Repeat = .fallthrough ∧ s.c ≠ 0) := by decide

theorem test_witness_ViolatingStoresAndCopiesStoreNothing :
    (operandViolates inUserMode (.page 7) = true ∧ operandViolates inUserMode .ptr = true) ∧
    (violates inUserMode (addrAC inUserMode) = true ∧ Readable inUserMode (.direct 126) ∧ Readable inUserMode (.page 8)) ∧
    (let s := { oddLimit with b := 0x80, c := 0x7F }; violates s (addrAC s) = true ∧ Readable s .ptr) ∧
    (violates inUserMode (pair inUserMode.a inUserMode.b) = true ∧ Readable inUserMode (.direct 0) ∧ Readable inUserMode (.page 127)) ∧
    (let s := { inUserMode with a := 8 }; StoreReaches s (addrAC s) ∧ StoreReaches s (pair s.a s.b) ∧ operandViolates s (.page 7) = true) ∧
    (let s := { oddLimit with b := 0x7F, c := 0x80 }; StoreReaches s (addrAC s) ∧ operandViolates s .ptr = true) ∧
    (let s := { inUserMode with a := 7, b := 0xFF, c := 0xFF }
     violates s (addrAC s) = true ∧ operandViolates s .ptr = true ∧ violates s (pair s.a s.b) = true ∧ operandViolates s (.page 7) = true) ∧
    (operandViolates inUserMode .ptr = true ∧ Installed inUserMode (addrC inUserMode) ∧ writeSuppressed inUserMode = false) := by decide

theorem test_witness_SuppressedWritesStoreNothing :
    writeSuppressed afterPmemacc = true ∧ (∃ t, exec (.stDirectA 126) afterPmemacc = .next t) ∧ Readable afterPmemacc (.direct 0) ∧
    Readable afterPmemacc (.page 8) ∧ Readable { afterPmemacc with a := 8 } .ptr :=
  ⟨rfl, ⟨_, rfl⟩, by decide, by decide, by decide⟩

theorem test_witness_AbsentMemoryStopsTheMachine :
    (let s := { start with cfg := { Config.sdog with memBytes := 126 }, b := 126 }
     (∀ o ∈ [Operand.direct 126, .ptr, .page 0], operandViolates s o = false ∧ s.cfg.memBytes ≤ operandAddr s o ∧ writeSuppressed s = false) ∧
     { s with ifBit := true }.ifBit = true ∧ s.cfg.loop0Repeat ≠ .refuse) ∧
    (let s := { start with cfg := { Config.sdog with memBytes := 126, protLimit := 100 }, uf := true, c := 126 }
     violates s (addrAC s) = false ∧ s.cfg.memBytes ≤ physData s (addrAC s) ∧ s.cfg.memBytes ≤ physData s (addrC s) ∧
       operandViolates s .ptr = true ∧ Readable s (.direct 125) ∧ writeSuppressed s = false) ∧
    (let s := { start with cfg := { Config.sdog with memBytes := 256 }, a := 1 }
     violates s (pair s.a s.b) = false ∧ s.cfg.memBytes ≤ physData s (pair s.a s.b) ∧ Readable s (.direct 126) ∧ Readable s (.page 0)) ∧
    (let s := { start with cfg := { Config.sdog with memBytes := 0 } }
     s.ifBit = false ∧ s.mf = false ∧ s.cfg.hasMulx = true ∧ s.cfg.memBytes ≤ physData s (windowAddr s 0)) := by
  decide

theorem test_witness_CallThenReturnComesBack :
    isLinking .balC1 = true ∧ start.cfg.pcw ≤ 17 ∧ CounterOk start.cfg (ctr start) ∧
    ∃ t, exec .balC1 { start with cf := true } = .next t ∧ t ≠ { start with cf := true } :=
  ⟨rfl, by decide, by decide, _, rfl, by decide⟩

theorem test_witness_FlagsSurviveAnInterrupt :
    let s := { start with ifBit := true, cf := true, ofBits := 2, uf := true, zf := true };
    s.ifBit = true ∧ Writable s (.direct 126) ∧ ∃ t, exec (.getflagDirect 126) s = .next t ∧
      (let u := { t with cf := false, zf := false, ofBits := 0, a := 1 };
        u.cfg = s.cfg ∧ u.ifBit = true ∧ u.mf = s.mf ∧ u.paccNow = s.paccNow ∧
          Memory.read u.mem (operandAddr s (.direct 126)) = Memory.read t.mem (operandAddr s (.direct 126))) :=
  ⟨rfl, by decide, _, rfl, rfl, rfl, rfl, rfl, rfl⟩

theorem test_witness_PointerStepsAsSixteenBits :
    (0 : BitVec 7) ≠ 126 ∧ Writable start (.direct 0) ∧ Writable start (.direct 126) := by decide

theorem test_witness_HardMacroReturnsToTheCaller :
    ∃ t, exec (.hmacro 63 0xFF) start = .next t ∧
      (let u := { t with a := 1 }; u.ifBit = false ∧ u.mf = true ∧ u.pc = t.pc) :=
  ⟨_, rfl, rfl, rfl, rfl⟩

end Sys2Proof.Machine
end

section
/-!
PROOFS. What a step leaves of the platform: the parameters, TM, the port events so far, and, until the step ends, the cycle
count. `Leaves P r` is a partial-correctness judgement on an outcome; each shared operation gets one lemma in that form, and the
dispatch is a case split by the shared operation behind each row.
-/

namespace Sys2Proof.Machine

open Sys2Proof

/-! ### Outcomes that leave a property -/

/-- If the outcome is a next state or a delivered value, it satisfies `P`. -/
def Leaves {α : Type} (P : α → Prop) (r : Host.Outcome α Fault Refusal) : Prop := ∀ x, r = .next x → P x

section
variable {α β : Type} {P : α → Prop} {Q : β → Prop} {r : Host.Outcome α Fault Refusal}
  {k : α → Host.Outcome β Fault Refusal}

theorem leaves_next {x : α} (h : P x) : Leaves P (.next x) := fun _ hx => by
  cases hx
  exact h

theorem leaves_refused {e : Refusal} : Leaves P (.refused e) := fun _ hx => by cases hx

theorem leaves_ite {c : Prop} [Decidable c] {r' : Host.Outcome α Fault Refusal} (h : c → Leaves P r)
    (h' : ¬c → Leaves P r') : Leaves P (if c then r else r') := by
  split
  · next hc => exact h hc
  · next hc => exact h' hc

/-- What the first of two operations leaves is what the second one may assume. -/
theorem Leaves.onNext (h : Leaves P r) (hk : ∀ x, P x → Leaves Q (k x)) : Leaves Q (onNext r k) := fun y hy => by
  obtain ⟨x, hr, hx⟩ := onNext_eq_next.1 hy
  exact hk x (h x hr) y hx

end

/-! ### What is kept of the platform while an instruction executes -/

/-- The four fields that an instruction does not write, but for port events appended. -/
def platform (s : State) : Nat × Config × Bool × List IoEvent := (s.cycles, s.cfg, s.tm, s.io)

/-- From `s` to `t` no time has passed, the parameters and TM are as they were, and port events were at most appended (R7,
R38, R350, R470). -/
structure PlatformKept (s t : State) : Prop where
  cycles : t.cycles = s.cycles
  cfg : t.cfg = s.cfg
  tm : t.tm = s.tm
  io : s.io <+: t.io

section
variable {s t u : State} {o : Operand}

theorem PlatformKept.refl (s : State) : PlatformKept s s := ⟨rfl, rfl, rfl, List.prefix_rfl⟩

theorem PlatformKept.trans (h : PlatformKept s t) (k : PlatformKept t u) : PlatformKept s u :=
  ⟨k.cycles.trans h.cycles, k.cfg.trans h.cfg, k.tm.trans h.tm, h.io.trans k.io⟩

/-- An update of other fields: that it leaves these four alone holds by definition of the update. -/
theorem PlatformKept.update (h : PlatformKept s t) (hu : platform u = platform t) : PlatformKept s u := by
  obtain ⟨hcycles, hcfg, htm, hio⟩ : u.cycles = t.cycles ∧ u.cfg = t.cfg ∧ u.tm = t.tm ∧ u.io = t.io := by
    simpa only [platform, Prod.mk.injEq] using hu
  exact h.trans ⟨hcycles, hcfg, htm, hio ▸ List.prefix_rfl⟩

theorem PlatformKept.next (h : PlatformKept s t) (hu : platform u = platform t) :
    Leaves (PlatformKept s) (.next u) := leaves_next (h.update hu)

theorem Leaves.after {r : Out} (hr : Leaves (PlatformKept t) r) (h : PlatformKept s t) : Leaves (PlatformKept s) r :=
  fun x hx => h.trans (hr x hx)

/-! ### Shared operations -/

theorem portRead_platformKept (port : Byte) : PlatformKept s (afterPortRead s port) :=
  ⟨rfl, rfl, rfl, List.prefix_append _ _⟩

theorem portWrite_platformKept (port v : Byte) : PlatformKept s (portWrite s port v) :=
  ⟨rfl, rfl, rfl, List.prefix_append _ _⟩

theorem violation_platformKept : PlatformKept s (raiseViolation s) := (PlatformKept.refl s).update rfl

theorem store_platformKept (p : Nat) (v : Byte) : PlatformKept s (storeByte s p v) := (PlatformKept.refl s).update rfl

theorem dataRead_leaves (d : DataAddr) : Leaves (fun _ => True) (dataRead s d) := fun _ _ => trivial

theorem dataWrite_platformKept (d : DataAddr) (v : Byte) : Leaves (PlatformKept s) (dataWrite s d v) := fun t h => by
  rcases dataWrite_eq_next.1 h with ⟨-, rfl⟩ | ⟨-, -, rfl⟩
  · exact .refl _
  · exact store_platformKept _ _

theorem checkedWrite_platformKept (d : DataAddr) (v : Byte) : Leaves (PlatformKept s) (checkedWrite s d v) :=
  fun t h => by
  rcases checkedWrite_eq_next.1 h with ⟨-, rfl⟩ | ⟨-, hw⟩
  · exact violation_platformKept
  · exact dataWrite_platformKept _ _ _ hw

theorem readOperand_platformKept (o : Operand) : Leaves (fun r => PlatformKept s r.2) (readOperand s o) :=
  fun ⟨v, t⟩ h => by
  rcases readOperand_eq_next.1 h with ⟨-, -, rfl⟩ | ⟨-, -, rfl⟩
  · exact violation_platformKept.update rfl
  · exact .refl _

theorem writeOperand_platformKept (o : Operand) (v : Byte) : Leaves (PlatformKept s) (writeOperand s o v) :=
  fun t h => by
  rcases writeOperand_eq_next.1 h with ⟨-, rfl⟩ | ⟨-, -, rfl⟩ | ⟨-, rfl⟩
  · exact violation_platformKept
  · exact .refl _
  · exact store_platformKept _ _

theorem readSource_platformKept (src : Source) : Leaves (fun r => PlatformKept s r.2) (readSource s src) := by
  cases src with
  | memory o => exact readOperand_platformKept o
  | regC => exact leaves_next (.refl s)

/-! ### Operations over an operand form -/

/-- A read of an operand and a write of the same operand, before an update. -/
theorem modify_platformKept {k : Byte → Byte} {g : Byte → State → State}
    (hg : ∀ v w, platform (g v w) = platform w) :
    Leaves (PlatformKept s)
      (onNext (readOperand s o) fun r => onNext (writeOperand r.2 o (k r.1)) fun w => .next (g r.1 w)) :=
  (readOperand_platformKept o).onNext fun r hr =>
    ((writeOperand_platformKept o _).after hr).onNext fun w hw => hw.next (hg r.1 w)

theorem arithMemory_platformKept (f : Byte → WithCarry) (o : Operand) : Leaves (PlatformKept s) (arithMemory f o s) :=
  modify_platformKept (k := fun v => (f v).result) (g := fun v w => setCarryZero w (f v)) fun _ _ => rfl

theorem arithExchange_platformKept (f : Byte → WithCarry) (o : Operand) :
    Leaves (PlatformKept s) (arithExchange f o s) :=
  modify_platformKept (k := fun v => (f v).result) (g := fun v w => { setCarryZero w (f v) with a := v, b := s.a })
    fun _ _ => rfl

theorem decrementKeepCarry_platformKept (o : Operand) : Leaves (PlatformKept s) (decrementKeepCarry o s) :=
  modify_platformKept (k := fun v => (sub8 v 1 false).result) (g := fun v w => setZero w (sub8 v 1 false).result)
    fun _ _ => rfl

theorem shiftMemory_platformKept (f : Byte → WithCarry) (o : Operand) : Leaves (PlatformKept s) (shiftMemory f o s) :=
  modify_platformKept (k := fun v => (f v).result) (g := fun v w => setCarry w (f v)) fun _ _ => rfl

theorem logicMemory_platformKept (f : Byte → Byte → Byte) (o : Operand) :
    Leaves (PlatformKept s) (logicMemory f o s) :=
  modify_platformKept (k := fun v => f v (registerOperand s o))
    (g := fun v w => setZero w (f v (registerOperand s o))) fun _ _ => rfl

theorem setflagFrom_platformKept (o : Operand) : Leaves (PlatformKept s) (setflagFrom o s) :=
  (readOperand_platformKept o).onNext fun _ hr => leaves_ite (fun _ => hr.next rfl) fun _ => leaves_refused

theorem getflagTo_platformKept (o : Operand) : Leaves (PlatformKept s) (getflagTo o s) := writeOperand_platformKept o _

theorem inTo_platformKept (o : Operand) : Leaves (PlatformKept s) (inTo o s) :=
  (writeOperand_platformKept o _).after (portRead_platformKept _)

theorem outFrom_platformKept (o : Operand) : Leaves (PlatformKept s) (outFrom o s) :=
  (readOperand_platformKept o).onNext fun _ hr => leaves_next (hr.trans (portWrite_platformKept _ _))

/-! ### Copies from memory to memory -/

/-- A read of an operand and a checked write elsewhere. -/
theorem copy_platformKept (d : DataAddr) :
    Leaves (PlatformKept s) (onNext (readOperand s o) fun r => checkedWrite r.2 d r.1) :=
  (readOperand_platformKept o).onNext fun _ hr => (checkedWrite_platformKept d _).after hr

theorem copyToABStep_platformKept (o : Operand) : Leaves (PlatformKept s) (copyToABStep o s) :=
  Leaves.onNext (copy_platformKept (pair s.a s.b)) fun _ ht => ht.next rfl

theorem copyToACStep_platformKept (o : Operand) : Leaves (PlatformKept s) (copyToACStep o s) :=
  (readOperand_platformKept o).onNext fun _ hr =>
    ((checkedWrite_platformKept _ _).after hr).onNext fun _ ht => ht.next rfl

theorem execStzcpPtr_platformKept : Leaves (PlatformKept s) (execStzcpPtr s) :=
  (readOperand_platformKept .ptr).onNext fun _ hr =>
    ((dataWrite_platformKept _ _).after hr).onNext fun _ ht => ht.next rfl

/-! ### Branches and loops -/

theorem branchIf_platformKept (cond : Bool) (target : Counter) : Leaves (PlatformKept s) (branchIf cond target s) := by
  cases cond with
  | false => exact leaves_next (.refl s)
  | true => exact (PlatformKept.refl s).next rfl

theorem linkIf_platformKept (cond : Bool) (target : Counter) : Leaves (PlatformKept s) (linkIf cond target s) := by
  cases cond with
  | false => exact leaves_next (.refl s)
  | true => exact (PlatformKept.refl s).next rfl

theorem loopStep_platformKept (target : Counter) (step : Byte) : PlatformKept s (loopStep target step s) := by
  unfold loopStep
  split
  · exact .refl s
  · exact (PlatformKept.refl s).update rfl

theorem loopZeroOffset_platformKept (step : Byte) : Leaves (PlatformKept s) (loopZeroOffset step s) := fun t h => by
  rcases loopZeroOffset_eq_next.1 h with ⟨-, rfl⟩ | ⟨-, rfl⟩ <;> exact loopStep_platformKept _ _

theorem loopCompound_platformKept {op : State → Out} {step : Byte} (h : Leaves (PlatformKept s) (op s)) :
    Leaves (PlatformKept s) (loopCompound op step s) := fun t ht => by
  obtain ⟨-, w, hop, hloop⟩ := loopCompound_eq_next.1 ht
  exact (h w hop).trans (loopZeroOffset_platformKept step t hloop)

/-! ### Instructions with a guard of their own -/

theorem execMulx_platformKept : Leaves (PlatformKept s) (execMulx s) :=
  leaves_ite
    (fun _ => (dataRead_leaves _).onNext fun _ _ => (dataWrite_platformKept _ _).onNext fun _ ht => ht.next rfl)
    fun _ => leaves_refused

theorem execReti_platformKept (m : BitVec 7) : Leaves (PlatformKept s) (execReti m s) :=
  leaves_ite
    (fun _ => (dataRead_leaves _).onNext fun _ _ =>
      leaves_ite (fun _ => (PlatformKept.refl s).next rfl) fun _ => leaves_refused)
    fun _ => leaves_refused

theorem execHmacro_platformKept (p : BitVec 6) (xx : Byte) : Leaves (PlatformKept s) (execHmacro p xx s) :=
  leaves_ite (fun _ => leaves_refused) fun _ => leaves_ite (fun _ => leaves_refused) fun _ =>
    (dataWrite_platformKept _ _).onNext fun _ ht => ht.next rfl

/-- A register update that an option or an operand range may refuse. -/
theorem guardedUpdate_platformKept {c : Prop} [Decidable c] {e : Refusal} (h : PlatformKept s u) :
    Leaves (PlatformKept s) (if c then .next u else .refused e) :=
  leaves_ite (fun _ => leaves_next h) fun _ => leaves_refused

end

/-! ### Every instruction -/

/-- No instruction that an end word can run lets time pass, changes the parameters or TM, or takes back a port event. -/
theorem execOrdinary_platformKept (i : Instr) (s : State) : Leaves (PlatformKept s) (execOrdinary i s) := by
  unfold execOrdinary
  cases i with
  | nop _ | ldAFromB | ldBFromA | swap | ldBFromC | getpc | getmc | setpc | setmc | getstat | getver | getid | cpuinfo
  | clc | disable | enable | ldAImm _ | ldBImm _ | ldCImm _ | ldxAImm _ | andAImm _ | xorAImm _ | orAImm _ | addAC | addcAC
  | subAC | subcAC | andAC | xorAC | orAC =>
    exact (PlatformKept.refl s).next rfl
  | usermode _ | offset _ | clear _ | mul | pmemacc =>
    exact guardedUpdate_platformKept ((PlatformKept.refl s).update rfl)
  | int _ => exact leaves_ite (fun _ => leaves_refused) fun _ => (PlatformKept.refl s).next rfl
  | load | save | macroEnd _ _ _ => exact leaves_refused
  | mulx => exact execMulx_platformKept
  | reti m => exact execReti_platformKept m
  | hmacro p xx => exact execHmacro_platformKept p xx
  | inputa => exact (portRead_platformKept s.c).next rfl
  | outputb => exact leaves_next (portWrite_platformKept _ _)
  | inout => exact ((portWrite_platformKept s.c s.b).trans (portRead_platformKept s.c)).next rfl
  | inDirect _ | inPtr | inPage _ => exact inTo_platformKept _
  | outDirect _ | outPtr | outPage _ => exact outFrom_platformKept _
  | setflagDirect _ | setflagPtr | setflagPage _ => exact setflagFrom_platformKept _
  | getflagDirect _ | getflagPtr | getflagPage _ => exact getflagTo_platformKept _
  | stDirectA _ | stPageA _ | stDirectC _ | stPtrC | stPageC _ => exact writeOperand_platformKept _ _
  | stDirectB _ | zero _ => exact dataWrite_platformKept _ _
  | ldADirect _ | ldAPtr | ldAPage _ | ldBDirect _ | ldBPtr | ldBPage _ | ldCDirect _ | ldCPtr | ldCPage _ | ldxADirect _
  | ldxAPtr | ldxAPage _ => exact (readOperand_platformKept _).onNext fun _ hr => hr.next rfl
  | stacpDirect _ | stacpPtr | stacpPage _ => exact copyToACStep_platformKept _
  | stabDirect _ | stabPage _ | stacPtr => exact copy_platformKept _
  | stabpDirect _ | stabpPage _ => exact copyToABStep_platformKept _
  | stzcpPtr => exact execStzcpPtr_platformKept
  | shlDirect _ | shlPtr | shlPage _ | shrDirect _ | shrPtr | shrPage _ | shlcDirect _ | shlcPtr | shlcPage _
  | shrcDirect _ | shrcPtr | shrcPage _ => exact shiftMemory_platformKept _ _
  | andDirectA _ | andPtrC | andPageA _ | xorDirectA _ | xorPtrC | xorPageA _ | orDirectA _ | orPtrC | orPageA _ =>
    exact logicMemory_platformKept _ _
  | incDirect _ | incPtr | incPage _ | inccDirect _ | inccPtr | inccPage _ | decPtr | decPage _ | deccDirect _ | deccPtr
  | deccPage _ | addDirectA _ | addPtrC | addPageA _ | addcDirectA _ | addcPtrC | addcPageA _ | subDirectA _ | subPtrC
  | subPageA _ | subcDirectA _ | subcPtrC | subcPageA _ => exact arithMemory_platformKept _ _
  | decDirect m =>
    exact leaves_ite (fun _ => decrementKeepCarry_platformKept _) fun _ => arithMemory_platformKept _ _
  | incxDirect _ | incxPtr | incxPage _ | incxcDirect _ | incxcPtr | incxcPage _ | decxDirect _ | decxPtr | decxPage _
  | decxcDirect _ | decxcPtr | decxcPage _ => exact arithExchange_platformKept _ _
  | addADirect _ | addAPage _ | addcADirect _ | addcAPage _ | subADirect _ | subAPage _ | subcADirect _ | subcAPage _
  | andADirect _ | andAPage _ | xorADirect _ | xorAPage _ | orADirect _ | orAPage _ =>
    exact (readSource_platformKept (.memory _)).onNext fun _ hr => hr.next rfl
  | jmpDirect _ | jmpC0 | jmpC1 | jmpZ0 | jmpZ1 | jmpPtr | jmpPage _ | jrRel _ | jrB | jrC0Rel _ | jrC0B | jrC1Rel _
  | jrC1B | jrZ0Rel _ | jrZ0B | jrZ1Rel _ | jrZ1B => exact branchIf_platformKept _ _
  | balDirect _ | balC0 | balC1 | balZ0 | balZ1 | balPtr | balPage _ | brRel _ | brB | brC0Rel _ | brC0B | brC1Rel _
  | brC1B | brZ0Rel _ | brZ0B | brZ1Rel _ | brZ1B => exact linkIf_platformKept _ _
  | loopdecRel _ | loopincRel _ => exact leaves_next (loopStep_platformKept _ _)
  | loopdecZero => exact loopZeroOffset_platformKept _
  | loopshrc | loopshlc => exact loopCompound_platformKept (shiftMemory_platformKept _ .ptr)
  | loopzero => exact loopCompound_platformKept (writeOperand_platformKept .ptr 0)

theorem execMacroEnd_platformKept (opmsb : Bool) (op : BitVec 6) (xx : Byte) (s : State) :
    Leaves (PlatformKept s) (execMacroEnd opmsb op xx s) := by
  unfold execMacroEnd
  refine leaves_ite (fun _ => leaves_refused) fun _ => leaves_ite (fun _ => leaves_refused) fun _ => ?_
  split
  · exact leaves_refused
  · exact leaves_ite (fun _ => leaves_refused) fun _ =>
      (execOrdinary_platformKept _ s).onNext fun _ ht => ht.next rfl

theorem exec_platformKept (i : Instr) (s : State) : Leaves (PlatformKept s) (exec i s) := by
  cases hi : isMacroEnd i with
  | false => exact execOrdinary_eq_exec hi ▸ execOrdinary_platformKept i s
  | true =>
    cases i with
    | macroEnd opmsb op xx => exact execMacroEnd_platformKept opmsb op xx s
    | _ => cases hi

/-! ### The cycle -/

section
variable {s t : State}

theorem fetchByte_platformKept (p : Nat) : Leaves (fun r => PlatformKept s r.2) (fetchByte s p) := fun ⟨v, t⟩ h => by
  obtain ⟨-, rfl | rfl⟩ := fetchByte_eq_next h
  · exact .refl _
  · exact (PlatformKept.refl s).update rfl

theorem fetchWord_platformKept : Leaves (fun r => PlatformKept s r.2) (fetchWord s) :=
  (fetchByte_platformKept _).onNext fun _ h₁ =>
    (fetchByte_platformKept _).onNext fun _ h₂ => leaves_next (h₁.trans h₂)

theorem runWord_platformKept (w : InstrWord) : Leaves (PlatformKept s) (runWord w s) := by
  unfold runWord
  split
  · exact leaves_refused
  · have hbegin : PlatformKept s (beginInstr s) := (PlatformKept.refl s).update rfl
    exact ((exec_platformKept _ _).after hbegin).onNext fun _ ht => ht.next rfl

/-- A step is what leaves the platform as it was, and then the end of the step. -/
theorem step_eq_endStep (h : step s = .next t) : ∃ u, PlatformKept s u ∧ t = endStep u := by
  have hstep : Leaves (fun t => ∃ u, PlatformKept s u ∧ t = endStep u) (step s) :=
    leaves_ite (fun _ => leaves_next ⟨takeInterrupt s, (PlatformKept.refl s).update rfl, rfl⟩) fun _ =>
      fetchWord_platformKept.onNext fun r hr =>
        ((runWord_platformKept r.1).after hr).onNext fun u hu => leaves_next ⟨u, hu, rfl⟩
  exact hstep t h

theorem jraAfter_lt (s : State) : (jraAfter s).toNat < 2 ^ s.cfg.jraw := by
  rw [jraAfter, BitVec.toNat_ofNat]
  exact (Nat.mod_le _ _).trans_lt (Nat.mod_lt _ (Nat.two_pow_pos _))

end

/-- Settles O13: what executes keeps the platform, and only the end of the step adds the 4 cycles and writes JRA. -/
theorem everyStepTakesFourCyclesAndKeepsTheParameters :
    Obligations.EveryStepTakesFourCyclesAndKeepsTheParameters := by
  intro s t h
  obtain ⟨u, hu, rfl⟩ := step_eq_endStep h
  obtain ⟨events, hevents⟩ := hu.io
  refine ⟨congrArg (· + 4) hu.cycles, hu.cfg, hu.tm, ?_, events, hevents.symm⟩
  exact hu.cfg ▸ jraAfter_lt u

end Sys2Proof.Machine
end

section
/-!
PROOFS. What one instruction may change (spec/10_state.md R22, R45). An instruction first makes its accesses to memory and
ports, which touch no register (`Accessed`), and then writes the parts that the spec's lists give to its row
(`WritesListed`). The composition `Effect` is shown once for every row; the frame statements and the invariant are read off
it.
-/

namespace Sys2Proof.Machine

open Sys2Proof

/-! ### Accesses -/

/-- From `s` only memory and the ports were accessed: no register, counter or flag was written, AE was set by a violation
in user mode, if at all, and memory stays canonical and installed. -/
inductive Accessed (s : State) : State → Prop where
  | intro (mem : List Host.Cell) (stale : Option Host.Cell) (ae : Bool) (draws : Nat) (portIn : List Byte)
      (io : List IoEvent)
      (violation : ae ≠ s.ae → ae = true ∧ s.cfg.userMode = true ∧ s.uf = true)
      (wf : Memory.wf s.mem = true → Memory.wf mem = true)
      (below : Memory.below s.cfg.memBytes s.mem = true → Memory.below s.cfg.memBytes mem = true) :
      Accessed s { s with mem := mem, stale := stale, ae := ae, draws := draws, portIn := portIn, io := io }

section
variable {s t u : State} {o : Operand}

/-- An access to the ports alone. -/
theorem accessed_ports (portIn : List Byte) (io : List IoEvent) (draws : Nat) :
    Accessed s { s with portIn := portIn, io := io, draws := draws } :=
  ⟨s.mem, s.stale, s.ae, draws, portIn, io, fun h => absurd rfl h, id, id⟩

theorem Accessed.refl (s : State) : Accessed s s := accessed_ports _ _ _

theorem AccessOnly.accessed (h : AccessOnly s t) : Accessed s t := by
  obtain ⟨mem, stale, ae, draws, rfl, hviolation, hwf, hbelow, -⟩ := h
  exact ⟨mem, stale, ae, draws, s.portIn, s.io, hviolation, hwf, hbelow⟩

theorem Accessed.trans (h : Accessed s t) (k : Accessed t u) : Accessed s u := by
  obtain ⟨_, _, ae₁, _, _, _, hviolation, hwf, hbelow⟩ := h
  obtain ⟨mem, stale, ae₂, draws, portIn, io, kviolation, kwf, kbelow⟩ := k
  refine ⟨mem, stale, ae₂, draws, portIn, io, fun hne => ?_, fun x => kwf (hwf x), fun x => kbelow (hbelow x)⟩
  by_cases hae : ae₂ = ae₁
  · subst hae
    exact hviolation hne
  · exact kviolation hae

theorem Leaves.accessedAfter {r : Out} (hr : Leaves (Accessed t) r) (h : Accessed s t) : Leaves (Accessed s) r :=
  fun x hx => h.trans (hr x hx)

theorem portRead_accessed (port : Byte) : Accessed s (afterPortRead s port) := accessed_ports _ _ _

theorem portWrite_accessed (port v : Byte) : Accessed s (portWrite s port v) := accessed_ports _ _ _

theorem readOperand_accessed (o : Operand) : Leaves (fun r => Accessed s r.2) (readOperand s o) :=
  fun _ h => (readOperand_accessOnly h).1.accessed

theorem writeOperand_accessed (o : Operand) (v : Byte) : Leaves (Accessed s) (writeOperand s o v) :=
  fun _ h => (writeOperand_accessOnly h).accessed

theorem checkedWrite_accessed (d : DataAddr) (v : Byte) : Leaves (Accessed s) (checkedWrite s d v) :=
  fun _ h => (checkedWrite_accessOnly h).accessed

theorem windowWrite_accessed (m : BitVec 7) (v : Byte) : Leaves (Accessed s) (dataWrite s (windowAddr s m) v) :=
  fun _ h => (dataWrite_accessOnly (storeAllowed_window m) h).accessed

theorem addrCWrite_accessed (v : Byte) : Leaves (Accessed s) (dataWrite s (addrC s) v) :=
  fun _ h => (dataWrite_accessOnly storeAllowed_addrC h).accessed

theorem Accessed.cfg_eq (h : Accessed s t) : t.cfg = s.cfg := by
  cases h
  rfl

theorem Accessed.addrC_eq (h : Accessed s t) : addrC s = addrC t := by
  cases h
  rfl

theorem readSource_accessed (src : Source) : Leaves (fun r => Accessed s r.2) (readSource s src) := by
  cases src with
  | memory o => exact readOperand_accessed o
  | regC => exact leaves_next (.refl s)

end

/-! ### The lists -/

/-- The instructions that write ZF: the rows "CF and ZF", "ZF only" and "all six" of R45. -/
def writesZero (i : Instr) : Bool := isArith i || isLogic i || writesAllFlags i

/-- The instructions that write CF: the rows "CF and ZF", "CF only" and "all six" of R45. -/
def writesCarry (i : Instr) : Bool := isArith i && !decKeepsCarry i || writesCarryOnly i || writesAllFlags i

/-- The instructions that may write the active counter (R300, R330). -/
def branches (i : Instr) : Bool :=
  isLinking i || isLoop i ||
  match i with
  | .jmpDirect _ | .jmpC0 | .jmpC1 | .jmpZ0 | .jmpZ1 | .jmpPtr | .jmpPage _
  | .jrRel _ | .jrB | .jrC0Rel _ | .jrC0B | .jrC1Rel _ | .jrC1B | .jrZ0Rel _ | .jrZ0B | .jrZ1Rel _ | .jrZ1B => true
  | _ => false

/-- The instructions that write UF: USERMODE and the row "all six" of R45. -/
def writesUser (i : Instr) : Bool :=
  writesAllFlags i ||
  match i with
  | .usermode _ => true
  | _ => false

/-- The instructions that write OF: OFFSET and the row "all six" of R45. -/
def writesOffset (i : Instr) : Bool :=
  writesAllFlags i ||
  match i with
  | .offset _ => true
  | _ => false

/-! What one instruction writes with one value: `none` for the instructions that leave the part alone. -/

/-- PC under SETPC (R150). -/
def newPc (i : Instr) (s : State) : Option Counter :=
  match i with
  | .setpc => some (indexTarget s.cfg (pair s.a s.b))
  | _ => none

/-- MC under SETMC and a hard macro entry (R151, R370). -/
def newMc (i : Instr) (s : State) : Option Counter :=
  match i with
  | .setmc => some (indexTarget s.cfg (pair s.a s.b))
  | .hmacro p _ => some (macroEntry s.cfg p)
  | _ => none

/-- IC under INT (R162). -/
def newIc (i : Instr) (s : State) : Option Counter :=
  match i with
  | .int k => some (slotVector s.cfg k)
  | _ => none

/-- MF under a hard macro entry (R32). -/
def newMf (i : Instr) : Option Bool :=
  match i with
  | .hmacro _ _ => some true
  | _ => none

/-- AE under CLEAR (R37). -/
def newAe (i : Instr) : Option Bool :=
  match i with
  | .clear _ => some false
  | _ => none

/-- EF under ENABLE and DISABLE (R39). -/
def newEf (i : Instr) : Option Bool :=
  match i with
  | .enable => some true
  | .disable => some false
  | _ => none

/-- IF under INT and RETI (R40). -/
def newIf (i : Instr) : Option Bool :=
  match i with
  | .int _ => some true
  | .reti _ => some false
  | _ => none

/-- PACC under PMEMACC (R41). -/
def newPacc (i : Instr) : Option Bool :=
  match i with
  | .pmemacc => some true
  | _ => none

/-- `t` with every part that the lists do not give to `i` put back to what it is in `s`, and every part that `i` writes with
one value at that value. -/
def listedOnly (i : Instr) (s t : State) : State where
  cfg := s.cfg
  a := if writesA i then t.a else s.a
  b := if writesBReg i then t.b else s.b
  c := if writesC i then t.c else s.c
  pc := (newPc i s).getD (if branches i then t.pc else s.pc)
  mc := (newMc i s).getD (if branches i then t.mc else s.mc)
  ic := (newIc i s).getD (if branches i then t.ic else s.ic)
  jra := s.jra
  zf := if writesZero i then t.zf else s.zf
  mf := (newMf i).getD s.mf
  uf := if writesUser i && s.cfg.userMode then t.uf else s.uf
  ofBits := if writesOffset i then t.ofBits else s.ofBits
  cf := if writesCarry i then t.cf else s.cf
  ae := (newAe i).getD s.ae
  tm := s.tm
  ef := (newEf i).getD s.ef
  ifBit := (newIf i).getD s.ifBit
  pacc := (newPacc i).getD s.pacc
  mem := s.mem
  lines := s.lines
  lineScript := s.lineScript
  portIn := s.portIn
  io := s.io
  paccNow := s.paccNow
  stale := s.stale
  draws := s.draws
  cycles := s.cycles

/-- From `s` to `t` at most the parts that the lists give to `i` were written. -/
def WritesListed (i : Instr) (s t : State) : Prop := t = listedOnly i s t

/-- What an instruction leaves: its accesses, and then the parts of its own. -/
def Effect (i : Instr) (s t : State) : Prop := ∃ w, Accessed s w ∧ WritesListed i w t

section
variable {s t u w : State} {o : Operand} {i : Instr}

theorem Accessed.next (h : Accessed s w) (hw : WritesListed i w t) : Leaves (Effect i s) (.next t) :=
  leaves_next ⟨w, h, hw⟩

theorem WritesListed.next (h : WritesListed i s t) : Leaves (Effect i s) (.next t) := (Accessed.refl s).next h


/-! ### Shared operations -/

/-- A value behind a gate passes the same gate unchanged. -/
theorem gate_gate (gate x y : Bool) : (if gate then (if gate then x else y) else y) = if gate then x else y := by
  cases gate <;> rfl

theorem setUser_listed (k : BitVec 4) (v : Bool) : WritesListed (.usermode k) s (setUser s v) :=
  congrArg (fun uf : Bool => ({ setUser s v with uf := uf } : State)) (gate_gate _ _ _).symm

theorem setFlags_listed (o : Operand) (v : Byte) :
    WritesListed (atForm o .setflagDirect .setflagPtr .setflagPage) s (setFlags s v) := by
  cases o <;> exact congrArg (fun uf : Bool => ({ setFlags s v with uf := uf } : State)) (gate_gate _ _ _).symm

theorem leaveInterrupt_listed (m : BitVec 7) (v : Byte) : WritesListed (.reti m) s (leaveInterrupt s v) :=
  congrArg (fun uf : Bool => ({ leaveInterrupt s v with uf := uf } : State)) (gate_gate _ _ _).symm

/-- A read of an operand and a write of the same operand, before the parts of the instruction's own. -/
theorem modify_effect {k : Byte → Byte} {g : Byte → State → State} (hg : ∀ v w, WritesListed i w (g v w)) :
    Leaves (Effect i s)
      (onNext (readOperand s o) fun r => onNext (writeOperand r.2 o (k r.1)) fun w => .next (g r.1 w)) :=
  (readOperand_accessed o).onNext fun r hr =>
    ((writeOperand_accessed o _).accessedAfter hr).onNext fun w hw => hw.next (hg r.1 w)

theorem arithMemory_effect (f : Byte → WithCarry) (hi : ∀ r w, WritesListed i w (setCarryZero w r)) :
    Leaves (Effect i s) (arithMemory f o s) :=
  modify_effect (k := fun v => (f v).result) (g := fun v w => setCarryZero w (f v)) fun _ => hi _

theorem arithExchange_effect (f : Byte → WithCarry)
    (hi : ∀ v r w, WritesListed i w { setCarryZero w r with a := v, b := s.a }) :
    Leaves (Effect i s) (arithExchange f o s) :=
  modify_effect (k := fun v => (f v).result) (g := fun v w => { setCarryZero w (f v) with a := v, b := s.a })
    fun _ => hi _ _

theorem shiftMemory_effect (f : Byte → WithCarry) (hi : ∀ r w, WritesListed i w (setCarry w r)) :
    Leaves (Effect i s) (shiftMemory f o s) :=
  modify_effect (k := fun v => (f v).result) (g := fun v w => setCarry w (f v)) fun _ => hi _

theorem logicMemory_effect (f : Byte → Byte → Byte) (hi : ∀ r w, WritesListed i w (setZero w r)) :
    Leaves (Effect i s) (logicMemory f o s) :=
  modify_effect (k := fun v => f v (registerOperand s o)) (g := fun v w => setZero w (f v (registerOperand s o)))
    fun _ => hi _

/-- `DEC [m]`: CF is written but for `m` = 124 and 125 (R270). -/
theorem execDecDirect_effect (m : BitVec 7) : Leaves (Effect (.decDirect m) s) (execDecDirect m s) :=
  leaves_ite
    (fun _ => modify_effect (k := fun v => (sub8 v 1 false).result)
      (g := fun v w => setZero w (sub8 v 1 false).result) fun v w =>
      congrArg (fun cf : Bool => ({ setZero w (sub8 v 1 false).result with cf := cf } : State))
        (ite_self w.cf).symm)
    fun hm => by
      have hkeeps : decKeepsCarry (.decDirect m) = false := decide_eq_false hm
      have hcarry : writesCarry (.decDirect m) = true := by
        rw [writesCarry, hkeeps]
        rfl
      exact arithMemory_effect _ fun r w =>
        congrArg (fun cf : Bool => ({ setCarryZero w r with cf := cf } : State)) (if_pos hcarry).symm

theorem setflagFrom_effect (o : Operand) :
    Leaves (Effect (atForm o .setflagDirect .setflagPtr .setflagPage) s) (setflagFrom o s) :=
  (readOperand_accessed o).onNext fun r hr =>
    leaves_ite (fun _ => hr.next (setFlags_listed o r.1)) fun _ => leaves_refused

/-- An operation that only accesses memory and ports. -/
theorem Leaves.effect {r : Out} (h : Leaves (Accessed s) r) (hi : ∀ w, WritesListed i w w) : Leaves (Effect i s) r :=
  fun t ht => ⟨t, h t ht, hi t⟩

theorem getflagTo_accessed (o : Operand) : Leaves (Accessed s) (getflagTo o s) := writeOperand_accessed o _

theorem inTo_accessed (o : Operand) : Leaves (Accessed s) (inTo o s) :=
  (writeOperand_accessed o _).accessedAfter (portRead_accessed _)

theorem outFrom_accessed (o : Operand) : Leaves (Accessed s) (outFrom o s) :=
  (readOperand_accessed o).onNext fun _ hr => leaves_next (hr.trans (portWrite_accessed _ _))

/-- A read of an operand and a checked write elsewhere. -/
theorem copy_accessed (o : Operand) (d : DataAddr) :
    Leaves (Accessed s) (onNext (readOperand s o) fun r => checkedWrite r.2 d r.1) :=
  (readOperand_accessed o).onNext fun _ hr => (checkedWrite_accessed d _).accessedAfter hr

theorem copyToABStep_effect (hi : ∀ w, WritesListed i w { w with b := s.b + 1 }) :
    Leaves (Effect i s) (copyToABStep o s) :=
  Leaves.onNext (copy_accessed o (pair s.a s.b)) fun w hw => hw.next (hi w)

theorem copyToACStep_effect (hi : ∀ w, WritesListed i w { w with b := s.b + 1, c := s.c + 1 }) :
    Leaves (Effect i s) (copyToACStep o s) :=
  (readOperand_accessed o).onNext fun _ hr =>
    ((checkedWrite_accessed _ _).accessedAfter hr).onNext fun w hw => hw.next (hi w)

theorem execStzcpPtr_effect : Leaves (Effect .stzcpPtr s) (execStzcpPtr s) :=
  (readOperand_accessed .ptr).onNext fun r hr => by
    rw [hr.addrC_eq]
    exact ((addrCWrite_accessed r.1).accessedAfter hr).onNext fun w hw => hw.next (t := { w with b := _, c := _ }) rfl

theorem branchIf_effect (cond : Bool) (target : Counter) (hs : WritesListed i s s)
    (hi : WritesListed i s (setCtr s target)) : Leaves (Effect i s) (branchIf cond target s) := by
  cases cond with
  | false => exact hs.next
  | true => exact hi.next

theorem linkIf_effect (cond : Bool) (target : Counter) (hs : WritesListed i s s)
    (hi : WritesListed i s (link (setCtr s target) (ctr s))) : Leaves (Effect i s) (linkIf cond target s) := by
  cases cond with
  | false => exact hs.next
  | true => exact hi.next

theorem loopStep_listed {target : Counter} {k : Byte} (hi : isLoop i = true) (h : WritesListed i w t) :
    WritesListed i w (loopStep target k t) := by
  have hstep : WritesListed i w (loopStep target k (listedOnly i w t)) := by
    unfold loopStep
    cases i with
    | loopdecZero | loopdecRel _ | loopshrc | loopzero | loopincRel _ | loopshlc => split <;> rfl
    | _ => cases hi
  rwa [← show t = listedOnly i w t from h] at hstep

theorem loopZeroOffset_listed {k : Byte} (hi : isLoop i = true) (h : WritesListed i w t) :
    Leaves (WritesListed i w) (loopZeroOffset k t) := fun u hu => by
  rcases loopZeroOffset_eq_next.1 hu with ⟨-, rfl⟩ | ⟨-, rfl⟩ <;> exact loopStep_listed hi h

theorem loopCompound_effect {op : State → Out} {k : Byte} (hi : isLoop i = true) (hop : Leaves (Effect i s) (op s)) :
    Leaves (Effect i s) (loopCompound op k s) := fun u hu => by
  obtain ⟨-, t, ht, hloop⟩ := loopCompound_eq_next.1 hu
  obtain ⟨w, hw, hlisted⟩ := hop t ht
  exact ⟨w, hw, loopZeroOffset_listed hi hlisted u hloop⟩

theorem execMulx_effect : Leaves (Effect .mulx s) (execMulx s) :=
  leaves_ite
    (fun _ => (dataRead_leaves _).onNext fun _ _ => (windowWrite_accessed _ _).onNext fun w hw =>
      hw.next (t := { w with a := _ }) rfl)
    fun _ => leaves_refused

theorem execReti_effect (m : BitVec 7) : Leaves (Effect (.reti m) s) (execReti m s) :=
  leaves_ite
    (fun _ => (dataRead_leaves _).onNext fun v _ =>
      leaves_ite (fun _ => (leaveInterrupt_listed m v).next) fun _ => leaves_refused)
    fun _ => leaves_refused

theorem execHmacro_effect (p : BitVec 6) (xx : Byte) : Leaves (Effect (.hmacro p xx) s) (execHmacro p xx s) :=
  leaves_ite (fun _ => leaves_refused) fun _ => leaves_ite (fun _ => leaves_refused) fun _ =>
    (windowWrite_accessed _ _).onNext fun w hw => by
      rw [← hw.cfg_eq]
      exact hw.next rfl

/-- A write of the registers that an option or an operand range may refuse. -/
theorem guarded_effect {c : Prop} [Decidable c] {e : Refusal} (h : WritesListed i s t) :
    Leaves (Effect i s) (if c then .next t else .refused e) :=
  leaves_ite (fun _ => h.next) fun _ => leaves_refused

end

/-! ### Every instruction -/

/-- Every instruction that an end word can run makes its accesses and writes what the lists give it, and nothing else. -/
theorem execOrdinary_effect (i : Instr) (s : State) : Leaves (Effect i s) (execOrdinary i s) := by
  unfold execOrdinary
  cases i with
  | nop _ | ldAFromB | ldBFromA | swap | ldBFromC | getpc | getmc | setpc | setmc | getstat | getver | getid | cpuinfo
  | clc | disable | enable | ldAImm _ | ldBImm _ | ldCImm _ | ldxAImm _ | andAImm _ | xorAImm _ | orAImm _ | addAC | addcAC
  | subAC | subcAC | andAC | xorAC | orAC => exact WritesListed.next rfl
  | offset _ | clear _ | mul | pmemacc => exact guarded_effect rfl
  | usermode k => exact guarded_effect (setUser_listed k _)
  | int _ => exact leaves_ite (fun _ => leaves_refused) fun _ => WritesListed.next rfl
  | load | save | macroEnd _ _ _ => exact leaves_refused
  | mulx => exact execMulx_effect
  | reti m => exact execReti_effect m
  | hmacro p xx => exact execHmacro_effect p xx
  | inputa => exact (portRead_accessed s.c).next rfl
  | outputb => exact (portWrite_accessed s.c s.b).next rfl
  | inout => exact ((portWrite_accessed s.c s.b).trans (portRead_accessed s.c)).next rfl
  | inDirect _ | inPtr | inPage _ => exact (inTo_accessed _).effect fun _ => rfl
  | outDirect _ | outPtr | outPage _ => exact (outFrom_accessed _).effect fun _ => rfl
  | setflagDirect m => exact setflagFrom_effect (.direct m)
  | setflagPtr => exact setflagFrom_effect .ptr
  | setflagPage m => exact setflagFrom_effect (.page m)
  | getflagDirect _ | getflagPtr | getflagPage _ => exact (getflagTo_accessed _).effect fun _ => rfl
  | stDirectA _ | stPageA _ | stDirectC _ | stPtrC | stPageC _ =>
    exact (writeOperand_accessed _ _).effect fun _ => rfl
  | stDirectB _ | zero _ => exact (windowWrite_accessed _ _).effect fun _ => rfl
  | ldADirect _ | ldAPtr | ldAPage _ | ldBDirect _ | ldBPtr | ldBPage _ | ldCDirect _ | ldCPtr | ldCPage _ | ldxADirect _
  | ldxAPtr | ldxAPage _ => exact (readOperand_accessed _).onNext fun _ hr => hr.next rfl
  | stacpDirect _ | stacpPtr | stacpPage _ => exact copyToACStep_effect fun _ => rfl
  | stabDirect _ | stabPage _ | stacPtr => exact (copy_accessed _ _).effect fun _ => rfl
  | stabpDirect _ | stabpPage _ => exact copyToABStep_effect fun _ => rfl
  | stzcpPtr => exact execStzcpPtr_effect
  | shlDirect _ | shlPtr | shlPage _ | shrDirect _ | shrPtr | shrPage _ | shlcDirect _ | shlcPtr | shlcPage _
  | shrcDirect _ | shrcPtr | shrcPage _ => exact shiftMemory_effect _ fun _ _ => rfl
  | andDirectA _ | andPtrC | andPageA _ | xorDirectA _ | xorPtrC | xorPageA _ | orDirectA _ | orPtrC | orPageA _ =>
    exact logicMemory_effect _ fun _ _ => rfl
  | incDirect _ | incPtr | incPage _ | inccDirect _ | inccPtr | inccPage _ | decPtr | decPage _ | deccDirect _ | deccPtr
  | deccPage _ | addDirectA _ | addPtrC | addPageA _ | addcDirectA _ | addcPtrC | addcPageA _ | subDirectA _ | subPtrC
  | subPageA _ | subcDirectA _ | subcPtrC | subcPageA _ => exact arithMemory_effect _ fun _ _ => rfl
  | decDirect m => exact execDecDirect_effect m
  | incxDirect _ | incxPtr | incxPage _ | incxcDirect _ | incxcPtr | incxcPage _ | decxDirect _ | decxPtr | decxPage _
  | decxcDirect _ | decxcPtr | decxcPage _ => exact arithExchange_effect _ fun _ _ _ => rfl
  | addADirect _ | addAPage _ | addcADirect _ | addcAPage _ | subADirect _ | subAPage _ | subcADirect _ | subcAPage _
  | andADirect _ | andAPage _ | xorADirect _ | xorAPage _ | orADirect _ | orAPage _ =>
    exact (readSource_accessed (.memory _)).onNext fun _ hr => hr.next rfl
  | jmpDirect _ | jmpC0 | jmpC1 | jmpZ0 | jmpZ1 | jmpPtr | jmpPage _ | jrRel _ | jrB | jrC0Rel _ | jrC0B | jrC1Rel _
  | jrC1B | jrZ0Rel _ | jrZ0B | jrZ1Rel _ | jrZ1B => exact branchIf_effect _ _ rfl rfl
  | balDirect _ | balC0 | balC1 | balZ0 | balZ1 | balPtr | balPage _ | brRel _ | brB | brC0Rel _ | brC0B | brC1Rel _
  | brC1B | brZ0Rel _ | brZ0B | brZ1Rel _ | brZ1B => exact linkIf_effect _ _ rfl rfl
  | loopdecRel _ | loopincRel _ => exact WritesListed.next (loopStep_listed rfl rfl)
  | loopdecZero =>
    exact fun t ht => ⟨s, .refl s, loopZeroOffset_listed rfl (show WritesListed .loopdecZero s s from rfl) t ht⟩
  | loopshrc | loopshlc => exact loopCompound_effect rfl (shiftMemory_effect (o := .ptr) _ fun _ _ => rfl)
  | loopzero => exact loopCompound_effect rfl ((writeOperand_accessed .ptr 0).effect fun _ => rfl)

/-! ### Which instruction writes a part with one value -/

section
variable {i : Instr} {s : State} {v : Bool} {target : Counter}

theorem newPc_eq_some (h : newPc i s = some target) : i = .setpc ∧ target = indexTarget s.cfg (pair s.a s.b) := by
  cases i with
  | setpc => exact ⟨rfl, (Option.some.inj h).symm⟩
  | _ => cases h

theorem newMc_eq_some (h : newMc i s = some target) :
    (i = .setmc ∧ target = indexTarget s.cfg (pair s.a s.b)) ∨
      ∃ p xx, i = .hmacro p xx ∧ target = macroEntry s.cfg p := by
  cases i with
  | setmc => exact .inl ⟨rfl, (Option.some.inj h).symm⟩
  | hmacro p xx => exact .inr ⟨p, xx, rfl, (Option.some.inj h).symm⟩
  | _ => cases h

theorem newIc_eq_some (h : newIc i s = some target) : ∃ k, i = .int k ∧ target = slotVector s.cfg k := by
  cases i with
  | int k => exact ⟨k, rfl, (Option.some.inj h).symm⟩
  | _ => cases h

theorem newMf_eq_some (h : newMf i = some v) : ∃ p xx, i = .hmacro p xx := by
  cases i with
  | hmacro p xx => exact ⟨p, xx, rfl⟩
  | _ => cases h

theorem newAe_eq_some (h : newAe i = some v) : v = false ∧ ∃ k, i = .clear k := by
  cases i with
  | clear k => exact ⟨(Option.some.inj h).symm, k, rfl⟩
  | _ => cases h

theorem newEf_eq_some (h : newEf i = some v) : i = .enable ∨ i = .disable := by
  cases i with
  | enable => exact .inl rfl
  | disable => exact .inr rfl
  | _ => cases h

theorem newIf_eq_some (h : newIf i = some v) :
    (v = true ∧ ∃ k, i = .int k) ∨ (v = false ∧ ∃ m, i = .reti m) := by
  cases i with
  | int k => exact .inl ⟨(Option.some.inj h).symm, k, rfl⟩
  | reti m => exact .inr ⟨(Option.some.inj h).symm, m, rfl⟩
  | _ => cases h

theorem newPacc_eq_some (h : newPacc i = some v) : v = true ∧ i = .pmemacc := by
  cases i with
  | pmemacc => exact ⟨(Option.some.inj h).symm, rfl⟩
  | _ => cases h

theorem writesUser_eq_true (h : writesUser i = true) : (∃ k, i = .usermode k) ∨ writesAllFlags i = true := by
  cases i with
  | usermode k => exact .inl ⟨k, rfl⟩
  | setflagDirect _ | setflagPtr | setflagPage _ | reti _ => exact .inr rfl
  | _ => cases h

theorem writesOffset_eq_true (h : writesOffset i = true) : (∃ k, i = .offset k) ∨ writesAllFlags i = true := by
  cases i with
  | offset k => exact .inl ⟨k, rfl⟩
  | setflagDirect _ | setflagPtr | setflagPage _ | reti _ => exact .inr rfl
  | _ => cases h

end

/-! ### What an effect says of each part -/

section
variable {s t : State} {i : Instr}

/-- A part that differs from what it was is on its list. -/
theorem listed_of_ne {α : Type} {listed : Bool} {x y z : α} (h : x = if listed then z else y) (hne : x ≠ y) :
    listed = true := by
  cases listed with
  | true => rfl
  | false => exact absurd h hne

/-- A part that differs from what it was has the one value its instruction writes. -/
theorem some_of_ne {α : Type} {new : Option α} {x y : α} (h : x = new.getD y) (hne : x ≠ y) : new = some x := by
  cases new with
  | some v => exact congrArg some h.symm
  | none => exact absurd h hne

/-- The same for a counter, which a branch may write too. -/
theorem some_or_branches_of_ne {new : Option Counter} {x y z : Counter}
    (h : x = new.getD (if branches i then z else y)) (hne : x ≠ y) : new = some x ∨ branches i = true := by
  cases new with
  | some v => exact .inl (congrArg some h.symm)
  | none => exact .inr (listed_of_ne h hne)

theorem Effect.cfg_eq (h : Effect i s t) : t.cfg = s.cfg := by
  obtain ⟨w, ⟨⟩, ht⟩ := h
  exact (congrArg State.cfg ht :)

theorem Effect.tm_eq (h : Effect i s t) : t.tm = s.tm := by
  obtain ⟨w, ⟨⟩, ht⟩ := h
  exact (congrArg State.tm ht :)

theorem Effect.a_listed (h : Effect i s t) (hne : t.a ≠ s.a) : writesA i = true := by
  obtain ⟨w, ⟨⟩, ht⟩ := h
  exact listed_of_ne (congrArg State.a ht :) hne

theorem Effect.b_listed (h : Effect i s t) (hne : t.b ≠ s.b) : writesBReg i = true := by
  obtain ⟨w, ⟨⟩, ht⟩ := h
  exact listed_of_ne (congrArg State.b ht :) hne

theorem Effect.c_listed (h : Effect i s t) (hne : t.c ≠ s.c) : writesC i = true := by
  obtain ⟨w, ⟨⟩, ht⟩ := h
  exact listed_of_ne (congrArg State.c ht :) hne

theorem Effect.zf_listed (h : Effect i s t) (hne : t.zf ≠ s.zf) : writesZero i = true := by
  obtain ⟨w, ⟨⟩, ht⟩ := h
  exact listed_of_ne (congrArg State.zf ht :) hne

theorem Effect.cf_listed (h : Effect i s t) (hne : t.cf ≠ s.cf) : writesCarry i = true := by
  obtain ⟨w, ⟨⟩, ht⟩ := h
  exact listed_of_ne (congrArg State.cf ht :) hne

theorem Effect.mf_listed (h : Effect i s t) (hne : t.mf ≠ s.mf) : ∃ p xx, i = .hmacro p xx := by
  obtain ⟨w, ⟨⟩, ht⟩ := h
  exact newMf_eq_some (some_of_ne (congrArg State.mf ht :) hne)

/-- UF is written only where user mode exists (R33). -/
theorem Effect.uf_listed (h : Effect i s t) (hne : t.uf ≠ s.uf) : writesUser i = true ∧ s.cfg.userMode = true := by
  obtain ⟨w, ⟨⟩, ht⟩ := h
  exact Bool.and_eq_true_iff.1 (listed_of_ne (congrArg State.uf ht :) hne)

theorem Effect.ofBits_listed (h : Effect i s t) (hne : t.ofBits ≠ s.ofBits) : writesOffset i = true := by
  obtain ⟨w, ⟨⟩, ht⟩ := h
  exact listed_of_ne (congrArg State.ofBits ht :) hne

theorem Effect.ef_listed (h : Effect i s t) (hne : t.ef ≠ s.ef) : i = .enable ∨ i = .disable := by
  obtain ⟨w, ⟨⟩, ht⟩ := h
  exact newEf_eq_some (some_of_ne (congrArg State.ef ht :) hne)

/-- AE changes by a violation in user mode, or under CLEAR. -/
theorem Effect.ae_listed (h : Effect i s t) (hne : t.ae ≠ s.ae) :
    (t.ae = true ∧ s.cfg.userMode = true ∧ s.uf = true) ∨ (t.ae = false ∧ ∃ k, i = .clear k) := by
  obtain ⟨w, ⟨_, _, ae, _, _, _, hviolation, -, -⟩, ht⟩ := h
  have hae : t.ae = (newAe i).getD ae := (congrArg State.ae ht :)
  by_cases hclear : t.ae = ae
  · exact .inl (hclear ▸ hviolation (hclear ▸ hne))
  · exact .inr (newAe_eq_some (some_of_ne hae hclear))

theorem Effect.ifBit_listed (h : Effect i s t) (hne : t.ifBit ≠ s.ifBit) :
    (t.ifBit = true ∧ ∃ k, i = .int k) ∨ (t.ifBit = false ∧ ∃ m, i = .reti m) := by
  obtain ⟨w, ⟨⟩, ht⟩ := h
  exact newIf_eq_some (some_of_ne (congrArg State.ifBit ht :) hne)

theorem Effect.pacc_listed (h : Effect i s t) (hne : t.pacc ≠ s.pacc) : t.pacc = true ∧ i = .pmemacc := by
  obtain ⟨w, ⟨⟩, ht⟩ := h
  exact newPacc_eq_some (some_of_ne (congrArg State.pacc ht :) hne)

theorem Effect.pc_listed (h : Effect i s t) (hne : t.pc ≠ s.pc) : newPc i s = some t.pc ∨ branches i = true := by
  obtain ⟨w, ⟨⟩, ht⟩ := h
  exact some_or_branches_of_ne (congrArg State.pc ht :) hne

theorem Effect.mc_listed (h : Effect i s t) (hne : t.mc ≠ s.mc) : newMc i s = some t.mc ∨ branches i = true := by
  obtain ⟨w, ⟨⟩, ht⟩ := h
  exact some_or_branches_of_ne (congrArg State.mc ht :) hne

theorem Effect.ic_listed (h : Effect i s t) (hne : t.ic ≠ s.ic) : newIc i s = some t.ic ∨ branches i = true := by
  obtain ⟨w, ⟨⟩, ht⟩ := h
  exact some_or_branches_of_ne (congrArg State.ic ht :) hne

/-- Memory stays canonical and within the installed memory. -/
theorem Effect.mem_ok (h : Effect i s t) (hwf : Memory.wf s.mem = true)
    (hbelow : Memory.below s.cfg.memBytes s.mem = true) :
    Memory.wf t.mem = true ∧ Memory.below s.cfg.memBytes t.mem = true := by
  obtain ⟨w, ⟨mem, _, _, _, _, _, -, kwf, kbelow⟩, ht⟩ := h
  have hmem : t.mem = mem := (congrArg State.mem ht :)
  exact hmem ▸ ⟨kwf hwf, kbelow hbelow⟩

end

/-! ### Branches and loops write the active counter -/

section
variable {s t : State} {i : Instr}

/-- The three counters. -/
def counters (s : State) : Counter × Counter × Counter := (s.pc, s.mc, s.ic)

/-- From `s` to `t` the counters are kept, or the active one is written with an address of an instruction. -/
def Branched (s t : State) : Prop :=
  counters t = counters s ∨
    ∃ v, (ConfigOk s.cfg → CounterOk s.cfg (ctr s) → CounterOk s.cfg v) ∧ counters t = counters (setCtr s v)

theorem branchIf_branched {cond : Bool} {target : Counter}
    (hv : ConfigOk s.cfg → CounterOk s.cfg (ctr s) → CounterOk s.cfg target) :
    Leaves (Branched s) (branchIf cond target s) := by
  cases cond with
  | false => exact leaves_next (.inl rfl)
  | true => exact leaves_next (.inr ⟨target, hv, rfl⟩)

theorem linkIf_branched {cond : Bool} {target : Counter}
    (hv : ConfigOk s.cfg → CounterOk s.cfg (ctr s) → CounterOk s.cfg target) :
    Leaves (Branched s) (linkIf cond target s) := by
  cases cond with
  | false => exact leaves_next (.inl rfl)
  | true => exact leaves_next (.inr ⟨target, hv, rfl⟩)

theorem loopStep_branched {target : Counter} {k : Byte}
    (hv : ConfigOk s.cfg → CounterOk s.cfg (ctr s) → CounterOk s.cfg target) : Branched s (loopStep target k s) := by
  unfold loopStep
  split
  · exact .inl rfl
  · exact .inr ⟨target, hv, rfl⟩

theorem loopZeroOffset_branched {k : Byte} : Leaves (Branched s) (loopZeroOffset k s) := fun t h => by
  rcases loopZeroOffset_eq_next.1 h with ⟨-, rfl⟩ | ⟨-, rfl⟩
  · exact loopStep_branched relativeTarget_ok
  · exact loopStep_branched fun _ => id

/-- What decides which counter is active, and the counters. -/
def counterView (s : State) : Config × Bool × Bool × Counter × Counter × Counter :=
  (s.cfg, s.ifBit, s.mf, counters s)

theorem Branched.of_view {u : State} (h : Branched t u) (hview : counterView t = counterView s) : Branched s u := by
  simp only [counterView, counters, Prod.mk.injEq] at hview
  obtain ⟨hcfg, hif, hmf, hpc, hmc, hic⟩ := hview
  simpa only [Branched, counters, ctr, setCtr, hcfg, hif, hmf, hpc, hmc, hic] using h

theorem loopCompound_branched {op : State → Out} {k : Byte}
    (hop : Leaves (fun t => counterView t = counterView s) (op s)) : Leaves (Branched s) (loopCompound op k s) :=
  fun u hu => by
  obtain ⟨-, t, ht, hloop⟩ := loopCompound_eq_next.1 hu
  exact (loopZeroOffset_branched u hloop).of_view (hop t ht)

theorem Accessed.counterView_eq (h : Accessed s t) : counterView t = counterView s := by
  cases h
  rfl

/-- The shift of the byte at `[A:B]` is that of SHL, which writes no counter. -/
theorem shiftAtAB_counterView (f : Byte → WithCarry) :
    Leaves (fun t => counterView t = counterView s) (shiftAtAB f s) := fun t h => by
  have heffect : Leaves (Effect .shlPtr s) (shiftAtAB f s) := shiftMemory_effect f fun _ _ => rfl
  obtain ⟨w, hw, ht⟩ := heffect t h
  exact (congrArg counterView ht :).trans hw.counterView_eq

theorem execOrdinary_branched (hi : branches i = true) : Leaves (Branched s) (execOrdinary i s) := by
  cases i with
  | jmpDirect m => exact branchIf_branched fun h _ => targetM_ok h m
  | balDirect m => exact linkIf_branched fun h _ => targetM_ok h m
  | jmpC0 | jmpC1 | jmpZ0 | jmpZ1 | jmpPtr => exact branchIf_branched fun h _ => targetAB_ok h
  | balC0 | balC1 | balZ0 | balZ1 | balPtr => exact linkIf_branched fun h _ => targetAB_ok h
  | jmpPage m => exact branchIf_branched fun h _ => targetMB_ok h m
  | balPage m => exact linkIf_branched fun h _ => targetMB_ok h m
  | jrRel _ | jrB | jrC0Rel _ | jrC0B | jrC1Rel _ | jrC1B | jrZ0Rel _ | jrZ0B | jrZ1Rel _ | jrZ1B =>
    exact branchIf_branched relativeTarget_ok
  | brRel _ | brB | brC0Rel _ | brC0B | brC1Rel _ | brC1B | brZ0Rel _ | brZ0B | brZ1Rel _ | brZ1B =>
    exact linkIf_branched relativeTarget_ok
  | loopdecRel _ | loopincRel _ => exact leaves_next (loopStep_branched relativeTarget_ok)
  | loopdecZero => exact loopZeroOffset_branched
  | loopshrc | loopshlc => exact loopCompound_branched (shiftAtAB_counterView _)
  | loopzero =>
    exact loopCompound_branched (op := (writeOperand · .ptr 0)) fun _ h =>
      (writeOperand_accessed .ptr 0 _ h).counterView_eq
  | _ => cases hi

end

/-! ### The frame statements -/

section
variable {s t : State} {i : Instr}

theorem exec_effect (hi : isMacroEnd i = false) (h : exec i s = .next t) : Effect i s t :=
  execOrdinary_effect i s t (execOrdinary_eq_exec hi ▸ h)

/-- A branch or loop leaves the two counters that are not active. -/
theorem Branched.inactive (h : Branched s t) :
    (t.pc ≠ s.pc → s.ifBit = false ∧ s.mf = false) ∧ (t.mc ≠ s.mc → s.ifBit = false ∧ s.mf = true) ∧
      (t.ic ≠ s.ic → s.ifBit = true) := by
  rcases h with h | ⟨v, -, h⟩ <;> simp only [counters, Prod.mk.injEq] at h <;> obtain ⟨hpc, hmc, hic⟩ := h
  · exact ⟨fun hne => absurd hpc hne, fun hne => absurd hmc hne, fun hne => absurd hic hne⟩
  · rw [hpc, hmc, hic]
    cases hif : s.ifBit <;> cases hmf : s.mf <;> simp [hif, hmf]

end

/-- Settles O14: the flag table of R45, read off the effect of each row. -/
theorem flagsAreWrittenByTheInstructionsOfTheTable : Obligations.FlagsAreWrittenByTheInstructionsOfTheTable := by
  intro i s t hi ht
  have h := exec_effect hi ht
  refine ⟨fun hne => ?_, fun hne => ?_, h.mf_listed, fun hne => writesUser_eq_true (h.uf_listed hne).1,
    fun hne => writesOffset_eq_true (h.ofBits_listed hne)⟩
  · simpa [writesZero, or_assoc] using h.zf_listed hne
  · simpa [writesCarry, or_assoc] using h.cf_listed hne

/-- Settles O15: the lists of R22, read off the effect of each row. -/
theorem registersAreWrittenByTheInstructionsOfTheList : Obligations.RegistersAreWrittenByTheInstructionsOfTheList := by
  intro i s t hi ht
  have h := exec_effect hi ht
  exact ⟨h.a_listed, h.b_listed, h.c_listed⟩

/-- Settles O16: the mode bits, read off the effect of each row. -/
theorem modeBitsAreWrittenByTheirInstructions : Obligations.ModeBitsAreWrittenByTheirInstructions := by
  intro i s t hi ht
  have h := exec_effect hi ht
  exact ⟨h.ef_listed, h.ae_listed, h.tm_eq, h.ifBit_listed, h.pacc_listed⟩

/-- Settles O17: a counter changes by its own instruction, or by a branch or loop, which writes the active one. -/
theorem inactiveCountersKeepTheirValues : Obligations.InactiveCountersKeepTheirValues := by
  intro i s t hi ht
  have h := exec_effect hi ht
  have hinactive (hb : branches i = true) := (execOrdinary_branched hb t (execOrdinary_eq_exec hi ▸ ht)).inactive
  refine ⟨fun hne => ?_, fun hne => ?_, fun hne => ?_⟩
  · rcases h.pc_listed hne with hnew | hb
    · exact .inr (newPc_eq_some hnew).1
    · obtain ⟨hpc, -, -⟩ := hinactive hb
      exact .inl (hpc hne)
  · rcases h.mc_listed hne with hnew | hb
    · exact .inr ((newMc_eq_some hnew).imp And.left fun ⟨p, xx, hmacro, _⟩ => ⟨p, xx, hmacro⟩)
    · obtain ⟨-, hmc, -⟩ := hinactive hb
      exact .inl (hmc hne)
  · rcases h.ic_listed hne with hnew | hb
    · exact .inr ((newIc_eq_some hnew).imp fun _ => And.left)
    · obtain ⟨-, -, hic⟩ := hinactive hb
      exact .inl (hic hne)

/-! ### The invariant -/

/-- The invariant while a step is under way: `pacc` may be pending for the instruction that executes (R28). -/
abbrev InvWithin (s : State) : Prop := Inv { s with paccNow := false }

/-- Each counter is even and within its width (R29). -/
abbrev CountersOk (s : State) : Prop := CounterOk s.cfg s.pc ∧ CounterOk s.cfg s.mc ∧ CounterOk s.cfg s.ic

section
variable {s t : State} {i : Instr}

theorem ctr_ok (h : CountersOk s) : CounterOk s.cfg (ctr s) := by
  obtain ⟨hpc, hmc, hic⟩ := h
  unfold ctr
  split
  · exact hic
  · split
    · exact hmc
    · exact hpc

theorem setCtr_countersOk {v : Counter} (h : CountersOk s) (hv : CounterOk s.cfg v) : CountersOk (setCtr s v) := by
  obtain ⟨hpc, hmc, hic⟩ := h
  cases hif : s.ifBit <;> cases hmf : s.mf <;> simp only [CountersOk, setCtr, hif, hmf]
  · exact ⟨hv, hmc, hic⟩
  · exact ⟨hpc, hv, hic⟩
  · exact ⟨hpc, hmc, hv⟩
  · exact ⟨hpc, hmc, hv⟩

theorem slotVector_ok {cfg : Config} (h : ConfigOk cfg) (k : BitVec 4) : CounterOk cfg (slotVector cfg k) :=
  wrapCtr_ok h (by omega)

theorem macroEntry_ok {cfg : Config} (h : ConfigOk cfg) (p : BitVec 6) : CounterOk cfg (macroEntry cfg p) := by
  obtain ⟨-, -, -, -, -, hbase, hstride, -⟩ := id h
  refine wrapCtr_ok h ?_
  simp [Nat.add_mod, Nat.mul_mod, hbase, hstride]

theorem indexTarget_ok {cfg : Config} (h : ConfigOk cfg) (index : DataAddr) : CounterOk cfg (indexTarget cfg index) :=
  wrapCtr_ok h (by omega)

theorem newPc_ok {v : Counter} (hs : ConfigOk s.cfg) (h : newPc i s = some v) : CounterOk s.cfg v := by
  obtain ⟨-, rfl⟩ := newPc_eq_some h
  exact indexTarget_ok hs _

theorem newMc_ok {v : Counter} (hs : ConfigOk s.cfg) (h : newMc i s = some v) : CounterOk s.cfg v := by
  rcases newMc_eq_some h with ⟨-, rfl⟩ | ⟨p, -, -, rfl⟩
  · exact indexTarget_ok hs _
  · exact macroEntry_ok hs p

theorem newIc_ok {v : Counter} (hs : ConfigOk s.cfg) (h : newIc i s = some v) : CounterOk s.cfg v := by
  obtain ⟨k, -, rfl⟩ := newIc_eq_some h
  exact slotVector_ok hs k

theorem nextAddr_ok (h : ConfigOk s.cfg) (hc : CounterOk s.cfg (ctr s)) : CounterOk s.cfg (nextAddr s) :=
  wrapCtr_ok h (by have := hc.2; omega)

theorem requestVector_ok (h : ConfigOk s.cfg) : CounterOk s.cfg (requestVector s) := by
  obtain ⟨-, -, -, -, -, -, -, hvector⟩ := id h
  unfold requestVector
  split
  · exact slotVector_ok h 0
  · split
    · exact slotVector_ok h 15
    · exact wrapCtr_ok h hvector

theorem Branched.countersOk (h : Branched s t) (hcfg : t.cfg = s.cfg) (hs : ConfigOk s.cfg) (hc : CountersOk s) :
    CountersOk t := by
  rcases h with h | ⟨v, hv, h⟩ <;> simp only [counters, Prod.mk.injEq] at h <;> obtain ⟨hpc, hmc, hic⟩ := h
  · simpa only [CountersOk, hcfg, hpc, hmc, hic] using hc
  · rw [CountersOk, hcfg, hpc, hmc, hic]
    exact setCtr_countersOk hc (hv hs (ctr_ok hc))

/-- Every instruction that an end word can run keeps the counters legal. -/
theorem execOrdinary_countersOk (h : execOrdinary i s = .next t) (hs : ConfigOk s.cfg) (hc : CountersOk s) :
    CountersOk t := by
  have heffect := execOrdinary_effect i s t h
  by_cases hb : branches i = true
  · exact (execOrdinary_branched hb t h).countersOk heffect.cfg_eq hs hc
  · obtain ⟨hpc, hmc, hic⟩ := hc
    rw [CountersOk, heffect.cfg_eq]
    refine ⟨?_, ?_, ?_⟩
    · by_cases hne : t.pc = s.pc
      · exact hne ▸ hpc
      · exact newPc_ok hs ((heffect.pc_listed hne).resolve_right hb)
    · by_cases hne : t.mc = s.mc
      · exact hne ▸ hmc
      · exact newMc_ok hs ((heffect.mc_listed hne).resolve_right hb)
    · by_cases hne : t.ic = s.ic
      · exact hne ▸ hic
      · exact newIc_ok hs ((heffect.ic_listed hne).resolve_right hb)

theorem Effect.userBits_ok (h : Effect i s t) (hmode : s.cfg.userMode = false) (hs : s.uf = false ∧ s.ae = false) :
    t.uf = false ∧ t.ae = false := by
  obtain ⟨huf, hae⟩ := hs
  constructor
  · by_contra hne
    obtain ⟨-, htrue⟩ := h.uf_listed (huf ▸ hne)
    exact absurd (hmode.symm.trans htrue) Bool.false_ne_true
  · by_contra hne
    rcases h.ae_listed (hae ▸ hne) with ⟨-, htrue, -⟩ | ⟨hfalse, -⟩
    · exact absurd (hmode.symm.trans htrue) Bool.false_ne_true
    · exact hne hfalse

theorem execOrdinary_invWithin (hs : InvWithin s) : Leaves InvWithin (execOrdinary i s) := fun t h => by
  obtain ⟨hcfg, hpc, hmc, hic, hwf, hbelow, huser, htimer, -⟩ := hs
  have heffect := execOrdinary_effect i s t h
  obtain ⟨kpc, kmc, kic⟩ := execOrdinary_countersOk h hcfg ⟨hpc, hmc, hic⟩
  obtain ⟨kwf, kbelow⟩ := heffect.mem_ok hwf hbelow
  have kcfg := heffect.cfg_eq
  refine ⟨kcfg ▸ hcfg, kpc, kmc, kic, kwf, kcfg ▸ kbelow, fun hm => ?_, fun ht => ?_, rfl⟩
  · exact heffect.userBits_ok (kcfg ▸ hm) (huser (kcfg ▸ hm))
  · exact heffect.tm_eq.trans (htimer (kcfg ▸ ht))

theorem exec_invWithin (hs : InvWithin s) : Leaves InvWithin (exec i s) := by
  cases hi : isMacroEnd i with
  | false => exact execOrdinary_eq_exec hi ▸ execOrdinary_invWithin hs
  | true =>
    cases i with
    | macroEnd opmsb op xx =>
      refine leaves_ite (fun _ => leaves_refused) fun _ => leaves_ite (fun _ => leaves_refused) fun _ => ?_
      split
      · exact leaves_refused
      · exact leaves_ite (fun _ => leaves_refused) fun _ =>
          (execOrdinary_invWithin hs).onNext fun _ ht => leaves_next ht
    | _ => cases hi

theorem beginInstr_invWithin (h : Inv s) : InvWithin (beginInstr s) := by
  obtain ⟨hcfg, hpc, hmc, hic, hwf, hbelow, huser, htimer, -⟩ := h
  have hc : CountersOk s := ⟨hpc, hmc, hic⟩
  obtain ⟨kpc, kmc, kic⟩ := setCtr_countersOk hc (nextAddr_ok hcfg (ctr_ok hc))
  exact ⟨hcfg, kpc, kmc, kic, hwf, hbelow, huser, htimer, rfl⟩

theorem takeInterrupt_invWithin (h : Inv s) : InvWithin (takeInterrupt s) := by
  obtain ⟨hcfg, hpc, hmc, -, hwf, hbelow, huser, htimer, -⟩ := h
  exact ⟨hcfg, hpc, hmc, requestVector_ok hcfg, hwf, hbelow, huser, htimer, rfl⟩

/-- The end of a step uses `pacc` up, and writes nothing else that the invariant speaks of. -/
theorem endStep_inv (h : InvWithin s) : Inv (endStep s) := h

theorem fetchByte_inv {p : Nat} (hs : Inv s) : Leaves (fun r => Inv r.2) (fetchByte s p) := fun ⟨v, t⟩ h => by
  obtain ⟨-, rfl | rfl⟩ := fetchByte_eq_next h <;> exact hs

theorem fetchWord_inv (hs : Inv s) : Leaves (fun r => Inv r.2) (fetchWord s) :=
  (fetchByte_inv hs).onNext fun _ h₁ => (fetchByte_inv h₁).onNext fun _ h₂ => leaves_next h₂

theorem runWord_invWithin (w : InstrWord) (hs : Inv s) : Leaves InvWithin (runWord w s) := by
  unfold runWord
  split
  · exact leaves_refused
  · exact (exec_invWithin (beginInstr_invWithin hs)).onNext fun _ ht => leaves_next ht

theorem step_inv (hs : Inv s) : Leaves Inv (step s) :=
  leaves_ite (fun _ => leaves_next (endStep_inv (takeInterrupt_invWithin hs))) fun _ =>
    (fetchWord_inv hs).onNext fun r hr =>
      (runWord_invWithin r.1 hr).onNext fun _ ht => leaves_next (endStep_inv ht)

end

/-- Settles O12: fetch, execution and the end of a step each keep the invariant, `pacc` being used up at the end. -/
theorem everyStepKeepsTheInvariant : Obligations.EveryStepKeepsTheInvariant := fun _ t hs h => step_inv hs t h

/-- Settles O11: the invariant at reset needs a legal RESET_PC only; every other counter is 0 and memory lists nothing. -/
theorem resetStateMeetsTheInvariant : Obligations.ResetStateMeetsTheInvariant := by
  refine ⟨fun c hc => ?_, by decide, rfl⟩
  obtain ⟨-, -, -, hpc, heven, -⟩ := id hc
  have hzero : CounterOk c 0 := ⟨Nat.two_pow_pos _, rfl⟩
  exact ⟨rfl, rfl, rfl, rfl, rfl, rfl, rfl, rfl, rfl, rfl,
    hc, ⟨hpc, heven⟩, hzero, hzero, rfl, rfl, fun _ => ⟨rfl, rfl⟩, fun _ => rfl, rfl⟩

end Sys2Proof.Machine
end

section
/-!
PROOFS. The arithmetic rows (spec/43_arith.md) where their operand is accessible, and the cycle around an instruction
(spec/10_state.md R28). Each group is tied to the one shared operation behind its three rows; the values and flags are
those of Laws/Values.lean.
-/

namespace Sys2Proof.Machine

open Sys2Proof

section
variable {s u : State} {o : Operand} {i : Instr} {f : Byte → WithCarry} {v : Byte} {c : Bool}

/-! ### One read and one write of the operand -/

/-- An instruction that ends with one store, its other writes being those of `u`. -/
theorem completesStoring_of_exec {p : Nat}
    (h : exec i s = .next { u with mem := Memory.write s.mem p v, stale := some (p, Memory.read s.mem p) }) :
    CompletesStoring i s p v u :=
  ⟨_, h, storeByte_storesOnly (s := s) p v, rfl⟩

theorem arithMemory_completes (hw : Writable s o) (hi : exec i s = arithMemory f o s)
    (hf : f (operandByte s o) = ⟨v, c⟩) :
    CompletesStoring i s (operandAddr s o) v { s with cf := c, zf := decide (v = 0) } := by
  refine completesStoring_of_exec (hi.trans (arithMemory_eq_next.2 (.inr (.inr ⟨hw, ?_⟩))))
  rw [hf, ← isZero_eq]
  rfl

theorem arithExchange_completes (hw : Writable s o) (hi : exec i s = arithExchange f o s)
    (hf : f (operandByte s o) = ⟨v, c⟩) :
    CompletesStoring i s (operandAddr s o) v
      { s with a := operandByte s o, b := s.a, cf := c, zf := decide (v = 0) } := by
  refine completesStoring_of_exec (hi.trans (arithExchange_eq_next.2 (.inr (.inr ⟨hw, ?_⟩))))
  rw [hf, ← isZero_eq]
  rfl

theorem decrementKeepCarry_completes (hw : Writable s o) (hi : exec i s = decrementKeepCarry o s) :
    CompletesStoring i s (operandAddr s o) (operandByte s o - 1)
      { s with zf := decide (operandByte s o - 1 = 0) } := by
  refine completesStoring_of_exec (hi.trans (decrementKeepCarry_eq_next.2 (.inr (.inr ⟨hw, ?_⟩))))
  rw [sub8_one, ← isZero_eq]
  rfl

/-- The register operand of the model's rows is the one the statements name. -/
theorem registerOperand_eq_memoryPartner (s : State) (o : Operand) : registerOperand s o = memoryPartner s o := by
  cases o <;> rfl

/-! ### DEC -/

/-- DEC keeps CF exactly at the direct operands 124 and 125 (R270). -/
theorem exec_dec (s : State) (o : Operand) :
    exec (atForm o .decDirect .decPtr .decPage) s =
      if o = .direct 124 ∨ o = .direct 125 then decrementKeepCarry o s else arithMemory (sub8 · 1 false) o s := by
  cases o with
  | direct m =>
    have hm : (m.toNat = 124 ∨ m.toNat = 125) ↔
        (Operand.direct m = .direct 124 ∨ Operand.direct m = .direct 125) := by
      simp [← BitVec.toNat_inj]
    exact if_congr hm rfl rfl
  | ptr => rfl
  | page m => rfl

theorem dec_completes (hw : Writable s o) :
    CompletesStoring (atForm o .decDirect .decPtr .decPage) s (operandAddr s o) (operandByte s o - 1)
      { s with
        cf := if o = .direct 124 ∨ o = .direct 125 then s.cf else decide (operandByte s o = 0)
        zf := decide (operandByte s o - 1 = 0) } := by
  by_cases hkeep : o = .direct 124 ∨ o = .direct 125
  · rw [if_pos hkeep]
    exact decrementKeepCarry_completes hw ((exec_dec s o).trans (if_pos hkeep))
  · rw [if_neg hkeep]
    exact arithMemory_completes hw ((exec_dec s o).trans (if_neg hkeep)) (sub8_one _)

/-! ### Additions and subtractions into A -/

/-- The source of an `A,` row, from its form: C for `xx = 127` (R245). -/
def sourceOf (o : Operand) : Source :=
  match o with
  | .ptr => .regC
  | .direct m => .memory (.direct m)
  | .page m => .memory (.page m)

theorem readSource_readable (h : SourceReadable s o) : readSource s (sourceOf o) = .next (sourceByte s o, s) := by
  cases o with
  | ptr => rfl
  | direct m => exact readOperand_readable (h.resolve_left nofun)
  | page m => exact readOperand_readable (h.resolve_left nofun)

theorem arithAFrom_completes (h : SourceReadable s o) (hi : exec i s = arithAFrom f (sourceOf o) s)
    (hf : f (sourceByte s o) = ⟨v, c⟩) : exec i s = .next { s with a := v, cf := c, zf := decide (v = 0) } := by
  rw [hi, arithAFrom, readSource_readable h, onNext_next, hf, ← isZero_eq]
  rfl

end

/-- Settles O39, from the shared operation of each group; DEC by its exception. -/
theorem incrementsAndDecrementsComplete : Obligations.IncrementsAndDecrementsComplete := by
  intro s o hw
  refine ⟨?_, ?_, ?_, dec_completes hw⟩
  · exact arithMemory_completes (f := (add8 · 1 false)) hw (by cases o <;> rfl) (add8_one _)
  · exact arithMemory_completes (f := (add8 · 0 s.cf)) hw (by cases o <;> rfl) (add8_zero_carry s _)
  · exact arithMemory_completes (f := (sub8 · 0 s.cf)) hw (by cases o <;> rfl) (sub8_zero_carry s _)

/-- Settles O40, from the shared operation of each group. -/
theorem addAndSubtractToMemoryComplete : Obligations.AddAndSubtractToMemoryComplete := by
  intro s o hw
  rw [← registerOperand_eq_memoryPartner]
  refine ⟨?_, ?_, ?_, ?_⟩
  · exact arithMemory_completes (f := (add8 · (registerOperand s o) false)) hw (by cases o <;> rfl) (add8_eq _ _)
  · exact arithMemory_completes (f := (add8 · (registerOperand s o) s.cf)) hw (by cases o <;> rfl) (add8_carry s _ _)
  · exact arithMemory_completes (f := (sub8 · (registerOperand s o) false)) hw (by cases o <;> rfl) (sub8_eq _ _)
  · exact arithMemory_completes (f := (sub8 · (registerOperand s o) s.cf)) hw (by cases o <;> rfl) (sub8_carry s _ _)

/-- Settles O41, from the shared operation behind the four groups; the subtractions take A from the source (R276). -/
theorem addAndSubtractToAComplete : Obligations.AddAndSubtractToAComplete := by
  intro s o h
  refine ⟨?_, ?_, ?_, ?_⟩
  · exact arithAFrom_completes (f := (add8 s.a · false)) h (by cases o <;> rfl) (add8_eq _ _)
  · exact arithAFrom_completes (f := (add8 s.a · s.cf)) h (by cases o <;> rfl) (add8_carry s _ _)
  · exact arithAFrom_completes (f := (sub8 · s.a false)) h (by cases o <;> rfl) (sub8_eq _ _)
  · exact arithAFrom_completes (f := (sub8 · s.a s.cf)) h (by cases o <;> rfl) (sub8_carry s _ _)

/-- Settles O42, from the shared operation of the X forms. -/
theorem exchangeFormsComplete : Obligations.ExchangeFormsComplete := by
  intro s o hw
  refine ⟨?_, ?_, ?_, ?_⟩
  · exact arithExchange_completes (f := (add8 · 1 false)) hw (by cases o <;> rfl) (add8_one _)
  · exact arithExchange_completes (f := (add8 · 0 s.cf)) hw (by cases o <;> rfl) (add8_zero_carry s _)
  · exact arithExchange_completes (f := (sub8 · 1 false)) hw (by cases o <;> rfl) (sub8_one _)
  · exact arithExchange_completes (f := (sub8 · 0 s.cf)) hw (by cases o <;> rfl) (sub8_zero_carry s _)

/-! ### The cycle -/

section
variable {s : State}

theorem fetchByte_fresh {p : Nat} (hstale : staleByte s p = none) (hp : p < s.cfg.memBytes) :
    fetchByte s p = .next (Memory.read s.mem p, s) := by
  simp only [fetchByte, if_pos hp, hstale]

theorem fetchWord_settled (h : FetchSettled s) : fetchWord s = .next (wordAtCounter s, s) := by
  obtain ⟨-, hfirst, hsecond, hlt₁, hlt₂⟩ := h
  simp only [fetchWord, fetchByte_fresh hfirst hlt₁, fetchByte_fresh hsecond hlt₂, onNext_next, wordAtCounter]

theorem step_of_not_accepted (h : interruptAccepted s = false) : step s = executeNext s := by
  simp only [step, h, Bool.false_eq_true, if_false]

/-- A step at a boundary with a settled fetch reads and runs the word that memory holds at the active counter. -/
theorem step_settled (h : FetchSettled s) :
    step s = onNext (runWord (wordAtCounter s) s) fun t => .next (endStep t) := by
  have hfetch := fetchWord_settled h
  obtain ⟨hno, -⟩ := h
  rw [step_of_not_accepted hno, executeNext, hfetch, onNext_next]

theorem onNext_assoc {α β γ : Type} (r : Host.Outcome α Fault Refusal) (k : α → Host.Outcome β Fault Refusal)
    (l : β → Host.Outcome γ Fault Refusal) : onNext (onNext r k) l = onNext r fun x => onNext (k x) l := by
  cases r <;> rfl

/-- The second fetch meets the memory and the parameters of the first. -/
theorem fetchWord_absent_second (hfirst : (ctr s).toNat < s.cfg.memBytes) (h : s.cfg.memBytes ≤ (ctrSecond s).toNat) :
    fetchWord s = .refused (.absentMemory (ctrSecond s).toNat) := by
  have hbyte : ∃ v t, fetchByte s (ctr s).toNat = .next (v, t) ∧ t.cfg = s.cfg := by
    simp only [fetchByte, if_pos hfirst]
    split
    · exact ⟨_, _, rfl, rfl⟩
    · exact ⟨_, _, rfl, rfl⟩
  obtain ⟨v, t, hv, hcfg⟩ := hbyte
  rw [fetchWord, hv, onNext_next, fetchByte_absent (hcfg ▸ h), onNext_refused]

end

/-- Settles O6: the fetch, the decoder's answer, and the cycle around `exec`; each refusal is that of the first part to
refuse. -/
theorem stepRunsTheDecodedInstruction : Obligations.StepRunsTheDecodedInstruction := by
  refine ⟨fun s d h hd => ?_, fun s e h he => ?_, fun s hno h => ?_, fun s hno hfirst h => ?_⟩
  · rw [step_settled h, runWord, hd]
    simp only [runDecoded, onNext_assoc, onNext_next]
    rfl
  · rw [step_settled h, runWord, he]
    rfl
  · rw [step_of_not_accepted hno, executeNext, fetchWord, fetchByte_absent h]
    rfl
  · rw [step_of_not_accepted hno, executeNext, fetchWord_absent_second hfirst h]
    rfl

/-- Settles O9: the active counter and its update, in the three cases of IF and MF (R27). -/
theorem activeCounterAdvances : Obligations.ActiveCounterAdvances := by
  intro s
  refine ⟨fun hif => ?_, fun hif hmf => ?_, fun hif hmf => ?_, rfl⟩
  · exact ⟨by simp only [ctr, hif, if_true], fun v => by simp [setCtr, hif]⟩
  · exact ⟨by simp [ctr, hif, hmf], fun v => by simp [setCtr, hif, hmf]⟩
  · exact ⟨by simp [ctr, hif, hmf], fun v => by simp [setCtr, hif, hmf]⟩

end Sys2Proof.Machine
end

section
/-!
PROOFS. Data addresses (spec/20_memory.md R62, R67 to R73) and the fetch of a byte just stored (R80, R461).
-/

namespace Sys2Proof.Machine

open Sys2Proof

section
variable {s : State} {d : DataAddr}

/-! ### Data addresses -/

theorem pageAddr_toNat (s : State) (m : BitVec 7) : (pageAddr s m).toNat = m.toNat * 256 + s.b.toNat := by
  have hm := m.isLt
  have hb := s.b.isLt
  simp only [pageAddr, BitVec.toNat_ofNat]
  omega

/-- The destination `[C]` lies in the first 256 data addresses. -/
theorem addrC_toNat (s : State) : (addrC s).toNat = s.c.toNat := by
  simp [addrC, pair_toNat]

theorem physData_unmapped (h : s.cfg.memoryModel = .tiny ∨ s.paccNow = true) : physData s d = d.toNat := by
  rcases h with h | h
  · simp only [physData, h]
  · simp only [physData, h, if_true]
    split <;> rfl

theorem physData_mapped (hmodel : s.cfg.memoryModel = .split) (hpacc : s.paccNow = false) :
    physData s d = s.cfg.dataBase + d.toNat := by
  simp only [physData, hmodel, hpacc, Bool.false_eq_true, if_false]

theorem inUser_eq_true : inUser s = true ↔ s.cfg.userMode = true ∧ s.uf = true := Bool.and_eq_true_iff

theorem violates_eq_true :
    violates s d = true ↔ s.cfg.userMode = true ∧ s.uf = true ∧ d.toNat < s.cfg.protLimit := by
  simp only [violates, Bool.and_eq_true_iff, inUser_eq_true, decide_eq_true_eq, and_assoc]

theorem writeSuppressed_eq_true :
    writeSuppressed s = true ↔ s.paccNow = true ∧ s.cfg.userMode = true ∧ s.uf = true := by
  simp only [writeSuppressed, Bool.and_eq_true_iff, inUser_eq_true]

end

/-- Settles O10: the value of each address, and each condition as the conjunction the rules give. -/
theorem dataAddresses : Obligations.DataAddresses := by
  intro s m d
  refine ⟨fun hif => ?_, fun hif => ?_, pair_toNat _ _, pageAddr_toNat s m, pair_toNat _ _, addrC_toNat s,
    physData_unmapped, physData_mapped, rfl, violates_eq_true, violates_eq_true, violates_eq_true,
    writeSuppressed_eq_true⟩
  · simp [ea, windowAddr_toNat, ofEff, hif]
  · simp [ea, windowAddr_toNat, ofEff, hif]

/-! ### A byte just stored -/

theorem staleByte_of_store {s : State} {p : Nat} {old : Byte} (h : s.stale = some (p, old)) :
    staleByte s p = some old := by
  simp only [staleByte, h, if_true]

theorem fetchByte_stale {s : State} {p : Nat} {old : Byte} (hp : p < s.cfg.memBytes) (h : staleByte s p = some old) :
    fetchByte s p = .next (if Config.freeBit s.draws then old else Memory.read s.mem p, afterDraw s) := by
  simp only [fetchByte, if_pos hp, h]

/-- Settles O7: the free choice for a byte just stored, and memory for every other byte. -/
theorem fetchMaySeeTheOldByte : Obligations.FetchMaySeeTheOldByte := by
  refine fun s p hp => ⟨fun old hold => ?_, fun hfresh => fetchByte_fresh hfresh hp⟩
  refine ⟨_, fetchByte_stale hp (staleByte_of_store hold), ?_⟩
  cases Config.freeBit s.draws
  · exact .inr rfl
  · exact .inl rfl

end Sys2Proof.Machine
end

section
/-!
PROOFS. Memory in user mode (spec/20_memory.md R67, R71 to R73). A state in user mode is run beside its twin, the same state over
a memory whose protected bytes may differ. `Related R x y` says of two outcomes that they are the same stop, or next states (or
delivered values) that `R` relates; each shared operation gets one lemma in that form. What the twins end in (`Confined`) gives
the noninterference statement, and with the twin of equal memory it gives what an instruction does to memory.
-/

namespace Sys2Proof.Machine

open Sys2Proof

/-! ### Pairs of outcomes -/

/-- The outcomes are the same stop, or both complete, with values that `R` relates. -/
inductive Related {α : Type} (R : α → α → Prop) :
    Host.Outcome α Fault Refusal → Host.Outcome α Fault Refusal → Prop where
  | next {x y : α} (h : R x y) : Related R (.next x) (.next y)
  | fault (e : Fault) : Related R (.fault e) (.fault e)
  | refused (e : Refusal) : Related R (.refused e) (.refused e)

section
variable {α β : Type} {R : α → α → Prop} {Q : β → β → Prop} {x y x' y' : Host.Outcome α Fault Refusal}
  {k l : α → Host.Outcome β Fault Refusal}

theorem Related.onNext (h : Related R x y) (hk : ∀ v w, R v w → Related Q (k v) (l w)) :
    Related Q (onNext x k) (onNext y l) := by
  cases h with
  | next hR => exact hk _ _ hR
  | fault e => exact .fault e
  | refused e => exact .refused e

/-- A branch on a condition that both sides share. -/
theorem related_ite {c : Prop} [Decidable c] (h : c → Related R x y) (h' : ¬c → Related R x' y') :
    Related R (if c then x else x') (if c then y else y') := by
  split
  · next hc => exact h hc
  · next hc => exact h' hc

theorem Related.mono {R' : α → α → Prop} (h : Related R x y) (hR : ∀ v w, R v w → R' v w) : Related R' x y := by
  cases h with
  | next h => exact .next (hR _ _ h)
  | fault e => exact .fault e
  | refused e => exact .refused e

end

theorem sameOutcome_of_related {x y : Out} (h : Related AgreeUnprotected x y) : SameOutcome x y := by
  cases h with
  | next h => exact h
  | fault e => exact rfl
  | refused e => exact rfl

/-! ### Twins -/

/-- The state is in user mode (R33). -/
def UserMode (s : State) : Prop := s.cfg.userMode = true ∧ s.uf = true

/-- The memory reads as that of `s` but for the bytes no user-mode access reaches (R71). -/
def ReadsUnprotected (s : State) (mem : List Host.Cell) : Prop :=
  ∀ p, (∀ d : DataAddr, 512 ≤ d.toNat → d.toNat < s.cfg.protLimit → p ≠ physData s d) →
    Memory.read mem p = Memory.read s.mem p

/-- Accesses have led from `s`, in user mode, to `u`, and from a twin of `s` to the twin of `u` over `mem`. -/
structure Twins (s u : State) (mem : List Host.Cell) : Prop where
  user : UserMode u
  accesses : AccessOnly s u
  reads : ReadsUnprotected u mem

/-- Two next states of an instruction run on `s` and on its twin: they agree on what is not protected, and in the first one the
protected bytes are those of `s`, as all of memory is where writes are suppressed. -/
structure Confined (s u v : State) : Prop where
  agree : AgreeUnprotected u v
  suppressed : writeSuppressed s = true → u.mem = s.mem
  kept : ∀ d : DataAddr, 512 ≤ d.toNat → d.toNat < s.cfg.protLimit →
    Memory.read u.mem (physData s d) = Memory.read s.mem (physData s d)

/-- What decides where an address lies, and memory. -/
def memoryView (s : State) : Config × Bool × List Host.Cell := (s.cfg, s.paccNow, s.mem)

section
variable {s u u' v : State} {o : Operand} {d : DataAddr} {mem : List Host.Cell}

theorem Twins.refl (hs : UserMode s) (hm : ReadsUnprotected s mem) : Twins s s mem := ⟨hs, .refl s, hm⟩

/-- A violation sets AE alone, on both sides. -/
theorem Twins.violation (h : Twins s u mem) (n : Nat) : Twins s { u with ae := true, draws := n } mem :=
  ⟨h.user, h.accesses.trans (.of_violation h.user n), h.reads⟩

theorem Twins.confined (h : Twins s u mem) : Confined s u { u with mem := mem } := by
  obtain ⟨⟨hmode, hflag⟩, ⟨mem', stale, ae, draws, rfl, -, -, -, hsuppressed, hkept⟩, hreads⟩ := h
  exact ⟨⟨rfl, hreads⟩, hsuppressed, hkept hmode hflag⟩

theorem Confined.eq_twin (h : Confined s u v) : ∃ mem, v = { u with mem := mem } := ⟨_, h.agree.1⟩

/-- An update of registers after the accesses, on both sides. -/
theorem Confined.update (h : Confined s u { u with mem := mem }) (hu : memoryView u' = memoryView u)
    (hv : v = { u' with mem := mem }) : Confined s u' v := by
  obtain ⟨⟨-, hreads⟩, hsuppressed, hkept⟩ := h
  simp only [memoryView, Prod.mk.injEq] at hu
  obtain ⟨hcfg, hpacc, hmem⟩ := hu
  have hphys (d : DataAddr) : physData u' d = physData u d := by simp only [physData, hcfg, hpacc]
  subst hv
  refine ⟨⟨rfl, fun p hp => ?_⟩, fun h => hmem.trans (hsuppressed h), fun d h₁ h₂ => hmem ▸ hkept d h₁ h₂⟩
  simp only [hphys, hcfg] at hp
  exact (hreads p hp).trans (congrArg (Memory.read · p) hmem.symm)

/-! ### Accesses -/

/-- A byte that user mode may access is the same in both memories. -/
theorem Twins.read_eq (h : Twins s u mem) (hd : StoreAllowed u d) :
    Memory.read mem (physData u d) = Memory.read u.mem (physData u d) := by
  obtain ⟨⟨hmode, hflag⟩, -, hreads⟩ := h
  refine hreads _ fun e h₁ h₂ he => ?_
  cases physData_injective he
  have := hd hmode hflag
  omega

/-- The second state is the twin of the first. -/
def Stepped (s u v : State) : Prop := ∃ mem, v = { u with mem := mem } ∧ Twins s u mem

/-- The same byte, delivered to twins. -/
def Delivered (s : State) (r q : Byte × State) : Prop := q.1 = r.1 ∧ Stepped s r.2 q.2

theorem Twins.stepped (h : Twins s u mem) : Stepped s u { u with mem := mem } := ⟨mem, rfl, h⟩

theorem Stepped.confined (h : Stepped s u v) : Confined s u v := by
  obtain ⟨mem, hv, h⟩ := h
  exact hv ▸ h.confined

theorem dataRead_related (h : Twins s u mem) (hd : StoreAllowed u d) :
    Related Eq (dataRead u d) (dataRead { u with mem := mem } d) :=
  related_ite (fun _ => .next (h.read_eq hd).symm) fun _ => .refused _

theorem checkedRead_related (h : Twins s u mem) :
    Related (Delivered s) (checkedRead u d) (checkedRead { u with mem := mem } d) :=
  related_ite (fun _ => .next ⟨rfl, (h.violation _).stepped⟩) fun hv =>
    (dataRead_related h (storeAllowed_of_not_violates (Bool.eq_false_iff.2 hv))).onNext fun _ _ he =>
      .next ⟨he.symm, h.stepped⟩

theorem readOperand_related (h : Twins s u mem) (o : Operand) :
    Related (Delivered s) (readOperand u o) (readOperand { u with mem := mem } o) := by
  cases o with
  | direct m =>
    exact (dataRead_related h (storeAllowed_window m)).onNext fun _ _ he => .next ⟨he.symm, h.stepped⟩
  | ptr => exact checkedRead_related h
  | page m => exact checkedRead_related h

/-- The store of one byte, at an address that user mode may access, keeps twins twins. -/
theorem Twins.store (h : Twins s u mem) (hd : StoreAllowed u d) {b : Byte}
    (hstore : dataWrite u d b = .next (storeByte u (physData u d) b)) :
    Stepped s (storeByte u (physData u d) b) (storeByte { u with mem := mem } (physData u d) b) := by
  refine ⟨Memory.write mem (physData u d) b, ?_, h.user, h.accesses.trans (dataWrite_accessOnly hd hstore),
    fun p hp => ?_⟩
  · exact congrArg (fun old : Byte => ({ u with
      mem := Memory.write mem (physData u d) b, stale := some (physData u d, old) } : State)) (h.read_eq hd)
  · simp only [storeByte_mem, read_write, h.reads p hp]

theorem dataWrite_related (h : Twins s u mem) (hd : StoreAllowed u d) (b : Byte) :
    Related (Stepped s) (dataWrite u d b) (dataWrite { u with mem := mem } d b) :=
  related_ite (fun _ => .next h.stepped) fun hw => related_ite
    (fun hi => .next (h.store hd (dataWrite_eq_next.2 (.inr ⟨Bool.eq_false_iff.2 hw, hi, rfl⟩))))
    fun _ => .refused _

theorem checkedWrite_related (h : Twins s u mem) (d : DataAddr) (b : Byte) :
    Related (Stepped s) (checkedWrite u d b) (checkedWrite { u with mem := mem } d b) :=
  related_ite (fun _ => .next (h.violation _).stepped) fun hv =>
    dataWrite_related h (storeAllowed_of_not_violates (Bool.eq_false_iff.2 hv)) b

theorem writeOperand_related (h : Twins s u mem) (o : Operand) (b : Byte) :
    Related (Stepped s) (writeOperand u o b) (writeOperand { u with mem := mem } o b) := by
  cases o with
  | direct m => exact dataWrite_related h (storeAllowed_window m) b
  | ptr => exact checkedWrite_related h _ b
  | page m => exact checkedWrite_related h _ b

/-! ### Instructions made of accesses -/

/-- After a read that delivered the same byte to twins, what follows may speak of that byte and of twins. -/
theorem readThen_related {x y : Host.Outcome (Byte × State) Fault Refusal} {k l : Byte × State → Out}
    (h : Related (Delivered s) x y)
    (hk : ∀ b w mem, Twins s w mem → Related (Confined s) (k (b, w)) (l (b, { w with mem := mem }))) :
    Related (Confined s) (onNext x k) (onNext y l) :=
  h.onNext fun ⟨b, w⟩ ⟨_, _⟩ ⟨hb, mem, hw, htwins⟩ => by
    cases hb
    cases hw
    exact hk b w mem htwins

/-- After a write, the same registers are written on both sides. -/
theorem writeThen_related {x y : Out} {k l : State → State} (h : Related (Stepped s) x y)
    (hview : ∀ w, memoryView (k w) = memoryView w)
    (hk : ∀ w mem, l { w with mem := mem } = { k w with mem := mem }) :
    Related (Confined s) (onNext x fun w => .next (k w)) (onNext y fun w => .next (l w)) :=
  h.onNext fun w _ ⟨mem, hw, htwins⟩ => by
    cases hw
    exact .next (htwins.confined.update (hview w) (hk w mem))

/-- A read of an operand and a write of the same operand, before an update of the registers. -/
theorem modify_related {k : Byte → Byte} {g : Byte → State → State} (h : Twins s u mem)
    (hview : ∀ b w, memoryView (g b w) = memoryView w)
    (hg : ∀ b w mem, g b { w with mem := mem } = { g b w with mem := mem }) :
    Related (Confined s)
      (onNext (readOperand u o) fun r => onNext (writeOperand r.2 o (k r.1)) fun w => .next (g r.1 w))
      (onNext (readOperand { u with mem := mem } o) fun r =>
        onNext (writeOperand r.2 o (k r.1)) fun w => .next (g r.1 w)) :=
  readThen_related (readOperand_related h o) fun b _ _ hw =>
    writeThen_related (writeOperand_related hw o _) (hview b) (hg b)

theorem arithMemory_related (h : Twins s u mem) (f : Byte → WithCarry) :
    Related (Confined s) (arithMemory f o u) (arithMemory f o { u with mem := mem }) :=
  modify_related (k := fun b => (f b).result) (g := fun b w => setCarryZero w (f b)) h (fun _ _ => rfl) fun _ _ _ => rfl

theorem arithExchange_related (h : Twins s u mem) (f : Byte → WithCarry) :
    Related (Confined s) (arithExchange f o u) (arithExchange f o { u with mem := mem }) :=
  modify_related (k := fun b => (f b).result) (g := fun b w => { setCarryZero w (f b) with a := b, b := u.a }) h
    (fun _ _ => rfl) fun _ _ _ => rfl

theorem decrementKeepCarry_related (h : Twins s u mem) :
    Related (Confined s) (decrementKeepCarry o u) (decrementKeepCarry o { u with mem := mem }) :=
  modify_related (k := fun b => (sub8 b 1 false).result) (g := fun b w => setZero w (sub8 b 1 false).result) h
    (fun _ _ => rfl) fun _ _ _ => rfl

theorem shiftMemory_related (h : Twins s u mem) (f : Byte → WithCarry) :
    Related (Confined s) (shiftMemory f o u) (shiftMemory f o { u with mem := mem }) :=
  modify_related (k := fun b => (f b).result) (g := fun b w => setCarry w (f b)) h (fun _ _ => rfl) fun _ _ _ => rfl

theorem registerOperand_twin (u : State) (mem : List Host.Cell) (o : Operand) :
    registerOperand { u with mem := mem } o = registerOperand u o := by
  cases o <;> rfl

theorem logicMemory_related (h : Twins s u mem) (f : Byte → Byte → Byte) :
    Related (Confined s) (logicMemory f o u) (logicMemory f o { u with mem := mem }) := by
  simp only [logicMemory, registerOperand_twin]
  exact modify_related (k := fun b => f b (registerOperand u o)) (g := fun b w => setZero w (f b (registerOperand u o)))
    h (fun _ _ => rfl) fun _ _ _ => rfl

/-- A read of an operand before an update of the registers. -/
theorem read_related {g g' : Byte × State → State} (h : Twins s u mem) (o : Operand)
    (hview : ∀ b w, memoryView (g (b, w)) = memoryView w)
    (hg : ∀ b w mem, g' (b, { w with mem := mem }) = { g (b, w) with mem := mem }) :
    Related (Confined s) (onNext (readOperand u o) fun r => .next (g r))
      (onNext (readOperand { u with mem := mem } o) fun r => .next (g' r)) :=
  readThen_related (readOperand_related h o) fun b w mem' hw => .next (hw.confined.update (hview b w) (hg b w mem'))

theorem arithAFrom_related (h : Twins s u mem) (f : Byte → WithCarry) (o : Operand) :
    Related (Confined s) (arithAFrom f (.memory o) u) (arithAFrom f (.memory o) { u with mem := mem }) :=
  read_related (g := fun r => { setCarryZero r.2 (f r.1) with a := (f r.1).result }) h o (fun _ _ => rfl)
    fun _ _ _ => rfl

theorem logicAFrom_related (h : Twins s u mem) (f : Byte → Byte → Byte) (o : Operand) :
    Related (Confined s) (logicAFrom f (.memory o) u) (logicAFrom f (.memory o) { u with mem := mem }) :=
  read_related (g := fun r => logicA f r.1 r.2) h o (fun _ _ => rfl) fun _ _ _ => rfl

theorem setflagFrom_related (h : Twins s u mem) (o : Operand) :
    Related (Confined s) (setflagFrom o u) (setflagFrom o { u with mem := mem }) :=
  readThen_related (readOperand_related h o) fun _ _ _ hw =>
    related_ite (fun _ => .next (hw.confined.update rfl rfl)) fun _ => .refused _

theorem getflagTo_related (h : Twins s u mem) (o : Operand) :
    Related (Confined s) (getflagTo o u) (getflagTo o { u with mem := mem }) :=
  (writeOperand_related h o (flagByte u)).mono fun _ _ hw => hw.confined

/-- A port read is the same on both sides: it delivers what the environment's script has. -/
theorem inTo_related (h : Twins s s mem) (o : Operand) :
    Related (Confined s) (inTo o s) (inTo o { s with mem := mem }) := by
  obtain ⟨huser, -, hreads⟩ := h
  have hport : Twins (afterPortRead s s.c) (afterPortRead s s.c) mem := .refl huser hreads
  exact (writeOperand_related hport o (portByte s)).mono fun _ _ hw =>
    have ⟨hagree, hsuppressed, hkept⟩ := hw.confined
    ⟨hagree, hsuppressed, hkept⟩

/-- A read of an operand and a checked write elsewhere. -/
theorem copy_related (h : Twins s u mem) (o : Operand) (d : DataAddr) :
    Related (Stepped s) (onNext (readOperand u o) fun r => checkedWrite r.2 d r.1)
      (onNext (readOperand { u with mem := mem } o) fun r => checkedWrite r.2 d r.1) :=
  (readOperand_related h o).onNext fun ⟨b, w⟩ ⟨_, _⟩ ⟨hb, mem', hw, htwins⟩ => by
    cases hb
    cases hw
    exact checkedWrite_related htwins d b

theorem copyToACStep_related (h : Twins s u mem) (o : Operand) :
    Related (Confined s) (copyToACStep o u) (copyToACStep o { u with mem := mem }) :=
  readThen_related (readOperand_related h o) fun b _ _ hw =>
    writeThen_related (checkedWrite_related hw (addrAC u) b) (k := fun w => { w with b := u.b + 1, c := u.c + 1 })
      (fun _ => rfl) fun _ _ => rfl

theorem copyToABStep_related (h : Twins s u mem) (o : Operand) :
    Related (Confined s) (copyToABStep o u) (copyToABStep o { u with mem := mem }) :=
  writeThen_related (copy_related h o (pair u.a u.b)) (k := fun w => { w with b := u.b + 1 }) (fun _ => rfl)
    fun _ _ => rfl

theorem execStzcpPtr_related (h : Twins s u mem) :
    Related (Confined s) (execStzcpPtr u) (execStzcpPtr { u with mem := mem }) :=
  readThen_related (readOperand_related h .ptr) fun b w _ hw =>
    have hd : StoreAllowed w (addrC u) := fun _ _ => .inl (by rw [addrC_toNat]; omega)
    writeThen_related (dataWrite_related hw hd b) (k := fun w => { w with b := u.b + 1, c := u.c + 1 })
      (fun _ => rfl) fun _ _ => rfl

theorem execMulx_related (h : Twins s u mem) :
    Related (Confined s) (execMulx u) (execMulx { u with mem := mem }) :=
  related_ite
    (fun _ => (dataRead_related h (storeAllowed_window 0)).onNext fun b _ hb => by
      cases hb
      exact writeThen_related (dataWrite_related h (storeAllowed_window 0) ((mulAdd u.a u.c b).extractLsb' 8 8))
        (k := fun w => { w with a := (mulAdd u.a u.c b).extractLsb' 0 8 }) (fun _ => rfl) fun _ _ => rfl)
    fun _ => .refused _

theorem execReti_related (h : Twins s u mem) (m : BitVec 7) :
    Related (Confined s) (execReti m u) (execReti m { u with mem := mem }) :=
  related_ite
    (fun _ => (dataRead_related h (storeAllowed_window m)).onNext fun b _ hb => by
      cases hb
      exact related_ite (fun _ => .next (h.confined.update rfl rfl)) fun _ => .refused _)
    fun _ => .refused _

theorem execHmacro_related (h : Twins s u mem) (p : BitVec 6) (xx : Byte) :
    Related (Confined s) (execHmacro p xx u) (execHmacro p xx { u with mem := mem }) :=
  related_ite (fun _ => .refused _) fun _ => related_ite (fun _ => .refused _) fun _ =>
    writeThen_related (dataWrite_related h (storeAllowed_window 0) xx)
      (k := fun w => { w with c := xx, mc := macroEntry u.cfg p, mf := true }) (fun _ => rfl) fun _ _ => rfl

/-! ### Branches and loops -/

theorem branchIf_related (h : Twins s u mem) (cond : Bool) (target : Counter) :
    Related (Confined s) (branchIf cond target u) (branchIf cond target { u with mem := mem }) := by
  cases cond <;> exact .next (h.confined.update rfl rfl)

theorem linkIf_related (h : Twins s u mem) (cond : Bool) (target : Counter) :
    Related (Confined s) (linkIf cond target u) (linkIf cond target { u with mem := mem }) := by
  cases cond <;> exact .next (h.confined.update rfl rfl)

theorem loopStep_of_zero {target : Counter} {k : Byte} (h : u.c = 0) : loopStep target k u = u := if_pos h

theorem loopStep_of_nonzero {target : Counter} {k : Byte} (h : u.c ≠ 0) :
    loopStep target k u = { setCtr u target with c := u.c - 1, b := u.b + k } := if_neg h

theorem loopStep_twin (target : Counter) (k : Byte) (u : State) (mem : List Host.Cell) :
    loopStep target k { u with mem := mem } = { loopStep target k u with mem := mem } := by
  by_cases hc : u.c = 0
  · rw [loopStep_of_zero hc]
    exact loopStep_of_zero hc
  · rw [loopStep_of_nonzero hc]
    exact loopStep_of_nonzero hc

theorem loopStep_memoryView (target : Counter) (k : Byte) (u : State) :
    memoryView (loopStep target k u) = memoryView u := by
  by_cases hc : u.c = 0
  · rw [loopStep_of_zero hc]
  · rw [loopStep_of_nonzero hc]
    rfl

theorem loopStep_confined (target : Counter) (k : Byte) (h : Confined s u { u with mem := mem }) :
    Confined s (loopStep target k u) (loopStep target k { u with mem := mem }) :=
  h.update (loopStep_memoryView target k u) (loopStep_twin target k u mem)

/-- A loop with offset 0 accesses no memory. -/
theorem loopZeroOffset_related (k : Byte) (h : Confined s u v) :
    Related (Confined s) (loopZeroOffset k u) (loopZeroOffset k v) := by
  obtain ⟨mem, rfl⟩ := h.eq_twin
  cases hloop : u.cfg.loop0Repeat <;> simp only [loopZeroOffset, hloop]
  · exact .refused _
  · exact .next (loopStep_confined _ k h)
  · exact .next (loopStep_confined _ k h)

theorem loopCompound_related {op op' : State → Out} (k : Byte)
    (h : Related (Confined s) (op u) (op' { u with mem := mem })) :
    Related (Confined s) (loopCompound op k u) (loopCompound op' k { u with mem := mem }) :=
  related_ite (fun _ => .refused _) fun _ => h.onNext fun _ _ hw => loopZeroOffset_related k hw

/-! ### Every instruction -/

/-- Every instruction that an end word can run ends on twins alike, and leaves what it may not write. -/
theorem execOrdinary_related (i : Instr) (h : Twins s s mem) :
    Related (Confined s) (execOrdinary i s) (execOrdinary i { s with mem := mem }) := by
  unfold execOrdinary
  cases i with
  | nop _ | ldAFromB | ldBFromA | swap | ldBFromC | getpc | getmc | setpc | setmc | getstat | getver | getid | cpuinfo
  | clc | disable | enable | ldAImm _ | ldBImm _ | ldCImm _ | ldxAImm _ | andAImm _ | xorAImm _ | orAImm _ | addAC | addcAC
  | subAC | subcAC | andAC | xorAC | orAC | inputa | outputb | inout => exact .next (h.confined.update rfl rfl)
  | usermode _ | offset _ | clear _ | mul | pmemacc =>
    exact related_ite (fun _ => .next (h.confined.update rfl rfl)) fun _ => .refused _
  | int _ => exact related_ite (fun _ => .refused _) fun _ => .next (h.confined.update rfl rfl)
  | load | save | macroEnd _ _ _ => exact .refused _
  | mulx => exact execMulx_related h
  | reti m => exact execReti_related h m
  | hmacro p xx => exact execHmacro_related h p xx
  | inDirect _ | inPtr | inPage _ => exact inTo_related h _
  | setflagDirect _ | setflagPtr | setflagPage _ => exact setflagFrom_related h _
  | getflagDirect _ | getflagPtr | getflagPage _ => exact getflagTo_related h _
  | stDirectA _ | stPageA _ | stDirectC _ | stPtrC | stPageC _ =>
    exact (writeOperand_related h _ _).mono fun _ _ hw => hw.confined
  | stDirectB m | zero m => exact (dataWrite_related h (storeAllowed_window m) _).mono fun _ _ hw => hw.confined
  | outDirect _ | outPtr | outPage _ | ldADirect _ | ldAPtr | ldAPage _ | ldBDirect _ | ldBPtr | ldBPage _ | ldCDirect _ | ldCPtr | ldCPage _ | ldxADirect _
  | ldxAPtr | ldxAPage _ => exact read_related h _ (fun _ _ => rfl) fun _ _ _ => rfl
  | addADirect _ | addAPage _ | addcADirect _ | addcAPage _ | subADirect _ | subAPage _ | subcADirect _ | subcAPage _ =>
    exact arithAFrom_related h _ _
  | andADirect _ | andAPage _ | xorADirect _ | xorAPage _ | orADirect _ | orAPage _ => exact logicAFrom_related h _ _
  | stacpDirect _ | stacpPtr | stacpPage _ => exact copyToACStep_related h _
  | stabDirect _ | stabPage _ | stacPtr => exact (copy_related h _ _).mono fun _ _ hw => hw.confined
  | stabpDirect _ | stabpPage _ => exact copyToABStep_related h _
  | stzcpPtr => exact execStzcpPtr_related h
  | shlDirect _ | shlPtr | shlPage _ | shrDirect _ | shrPtr | shrPage _ | shlcDirect _ | shlcPtr | shlcPage _
  | shrcDirect _ | shrcPtr | shrcPage _ => exact shiftMemory_related h _
  | andDirectA _ | andPtrC | andPageA _ | xorDirectA _ | xorPtrC | xorPageA _ | orDirectA _ | orPtrC | orPageA _ =>
    exact logicMemory_related h _
  | incDirect _ | incPtr | incPage _ | inccDirect _ | inccPtr | inccPage _ | decPtr | decPage _ | deccDirect _ | deccPtr
  | deccPage _ | addDirectA _ | addPtrC | addPageA _ | addcDirectA _ | addcPtrC | addcPageA _ | subDirectA _ | subPtrC
  | subPageA _ | subcDirectA _ | subcPtrC | subcPageA _ => exact arithMemory_related h _
  | decDirect m => exact related_ite (fun _ => decrementKeepCarry_related h) fun _ => arithMemory_related h _
  | incxDirect _ | incxPtr | incxPage _ | incxcDirect _ | incxcPtr | incxcPage _ | decxDirect _ | decxPtr | decxPage _
  | decxcDirect _ | decxcPtr | decxcPage _ => exact arithExchange_related h _
  | jmpDirect _ | jmpC0 | jmpC1 | jmpZ0 | jmpZ1 | jmpPtr | jmpPage _ | jrRel _ | jrB | jrC0Rel _ | jrC0B | jrC1Rel _
  | jrC1B | jrZ0Rel _ | jrZ0B | jrZ1Rel _ | jrZ1B => exact branchIf_related h _ _
  | balDirect _ | balC0 | balC1 | balZ0 | balZ1 | balPtr | balPage _ | brRel _ | brB | brC0Rel _ | brC0B | brC1Rel _
  | brC1B | brZ0Rel _ | brZ0B | brZ1Rel _ | brZ1B => exact linkIf_related h _ _
  | loopdecRel _ | loopincRel _ => exact .next (loopStep_confined _ _ h.confined)
  | loopdecZero => exact loopZeroOffset_related _ h.confined
  | loopshrc | loopshlc => exact loopCompound_related _ (shiftMemory_related (o := .ptr) h _)
  | loopzero =>
    exact loopCompound_related _ ((writeOperand_related h .ptr 0).mono fun _ _ hw => hw.confined)

theorem execMacroEnd_related (opmsb : Bool) (op : BitVec 6) (xx : Byte) (h : Twins s s mem) :
    Related (Confined s) (execMacroEnd opmsb op xx s) (execMacroEnd opmsb op xx { s with mem := mem }) := by
  refine related_ite (fun _ => .refused _) fun _ => related_ite (fun _ => .refused _) fun _ => ?_
  cases decodeUnmacroed s.cfg opmsb op xx with
  | error e => exact .refused _
  | ok d =>
    refine related_ite (fun _ => .refused _) fun _ => (execOrdinary_related d.instr h).onNext fun _ _ hw => ?_
    obtain ⟨mem, rfl⟩ := hw.eq_twin
    exact .next (hw.update rfl rfl)

theorem exec_related (i : Instr) (h : Twins s s mem) :
    Related (Confined s) (exec i s) (exec i { s with mem := mem }) := by
  cases hi : isMacroEnd i with
  | false =>
    rw [← execOrdinary_eq_exec hi, ← execOrdinary_eq_exec hi]
    exact execOrdinary_related i h
  | true =>
    cases i with
    | macroEnd opmsb op xx => exact execMacroEnd_related opmsb op xx h
    | _ => cases hi

/-- What an instruction executed in user mode does to memory: the twin that shares the memory tells. -/
theorem exec_confined {i : Instr} (hs : UserMode s) (h : exec i s = .next u) : Confined s u u := by
  have hrelated : Related (Confined s) (exec i s) (exec i s) := exec_related i (.refl hs fun _ _ => rfl)
  rw [h] at hrelated
  cases hrelated with
  | next h => exact h

end

/-- Settles O19: an instruction ends alike on twins, and the protected bytes are those of before. -/
theorem userModeCannotObserveProtectedMemory : Obligations.UserModeCannotObserveProtectedMemory := by
  refine ⟨fun i s t hmode hflag ⟨ht, hreads⟩ => ?_, fun i s t hmode hflag h => (exec_confined ⟨hmode, hflag⟩ h).kept⟩
  rw [ht]
  exact sameOutcome_of_related ((exec_related i (.refl ⟨hmode, hflag⟩ hreads)).mono fun _ _ h => h.agree)

end Sys2Proof.Machine
end

section
/-!
PROOFS. Accesses that violate, are suppressed, or meet absent memory (spec/20_memory.md R63, R67, R71 to R73). Each group of
rows is tied once to the shared operation behind its three rows; what an instruction does in one of the three situations then
follows from what its read and its write do there. A hard macro entry (R370) is such a write and an update.
-/

namespace Sys2Proof.Machine

open Sys2Proof

section
variable {s u w : State} {o : Operand} {d : DataAddr} {i : Instr} {m : BitVec 7}

/-! ### One access -/

/-- The state after the read of an operand: a read writes AE and the count of free values at most. -/
def afterRead (s : State) (ae : Bool) (draws : Nat) : State := { s with ae := ae, draws := draws }

theorem readOperand_violating (h : operandViolates s o = true) :
    readOperand s o = .next (freeByteNow s, afterRead s true (s.draws + 1)) :=
  readOperand_eq_next.2 (.inl ⟨h, rfl, rfl⟩)

theorem writeOperand_violating (h : operandViolates s o = true) (b : Byte) :
    writeOperand s o b = .next (raiseViolation s) :=
  writeOperand_eq_next.2 (.inl ⟨h, rfl⟩)

theorem checkedWrite_violating (h : violates s d = true) (b : Byte) :
    checkedWrite s d b = .next (raiseViolation s) :=
  checkedWrite_eq_next.2 (.inl ⟨h, rfl⟩)

theorem dataWrite_installed (hw : writeSuppressed s = false) (hi : Installed s d) (b : Byte) :
    dataWrite s d b = .next (storeByte s (physData s d) b) :=
  dataWrite_eq_next.2 (.inr ⟨hw, hi, rfl⟩)

theorem dataWrite_suppressed (hw : writeSuppressed s = true) (b : Byte) : dataWrite s d b = .next s :=
  dataWrite_eq_next.2 (.inl ⟨hw, rfl⟩)

/-- A read completes where it violates, and where it can be made. -/
theorem readOperand_completes (h : operandViolates s o = true ∨ Readable s o) :
    ∃ b ae draws, readOperand s o = .next (b, afterRead s ae draws) := by
  rcases h with h | h
  · exact ⟨_, _, _, readOperand_violating h⟩
  · exact ⟨_, _, _, readOperand_readable h⟩

/-! What a write does is decided by the state before the read of the same instruction. -/

section
variable {b : Byte} {ae : Bool} {n : Nat}

theorem writeAfterRead_violating (h : violates s d = true) :
    checkedWrite (afterRead s ae n) d b = .next (afterRead s true n) :=
  checkedWrite_violating (s := afterRead s ae n) h b

theorem writeAfterRead_reaches (h : StoreReaches s d) :
    checkedWrite (afterRead s ae n) d b = .next (storeByte (afterRead s ae n) (physData s d) b) :=
  checkedWrite_reaches (s := afterRead s ae n) h b

theorem writeAfterRead_absent (hw : writeSuppressed s = false) (hv : violates s d = false)
    (ha : s.cfg.memBytes ≤ physData s d) :
    checkedWrite (afterRead s ae n) d b = .refused (.absentMemory (physData s d)) :=
  checkedWrite_absent (s := afterRead s ae n) hw hv ha b

theorem uncheckedWriteAfterRead_installed (hw : writeSuppressed s = false) (hi : Installed s d) :
    dataWrite (afterRead s ae n) d b = .next (storeByte (afterRead s ae n) (physData s d) b) :=
  dataWrite_installed (s := afterRead s ae n) hw hi b

theorem uncheckedWriteAfterRead_absent (hw : writeSuppressed s = false) (ha : s.cfg.memBytes ≤ physData s d) :
    dataWrite (afterRead s ae n) d b = .refused (.absentMemory (physData s d)) :=
  dataWrite_absent (s := afterRead s ae n) hw ha b

end

/-! ### The shared operation behind each group of rows -/

theorem exec_loadA (s : State) (o : Operand) : exec (atForm o .ldADirect .ldAPtr .ldAPage) s = loadA o s := by
  cases o <;> rfl

theorem exec_loadB (s : State) (o : Operand) : exec (atForm o .ldBDirect .ldBPtr .ldBPage) s = loadB o s := by
  cases o <;> rfl

theorem exec_loadC (s : State) (o : Operand) : exec (atForm o .ldCDirect .ldCPtr .ldCPage) s = loadC o s := by
  cases o <;> rfl

theorem exec_loadExchange (s : State) (o : Operand) :
    exec (atForm o .ldxADirect .ldxAPtr .ldxAPage) s = loadExchange o s := by
  cases o <;> rfl

theorem exec_outFrom (s : State) (o : Operand) : exec (atForm o .outDirect .outPtr .outPage) s = outFrom o s := by
  cases o <;> rfl

theorem exec_setflagFrom (s : State) (o : Operand) :
    exec (atForm o .setflagDirect .setflagPtr .setflagPage) s = setflagFrom o s := by
  cases o <;> rfl

theorem exec_getflagTo (s : State) (o : Operand) :
    exec (atForm o .getflagDirect .getflagPtr .getflagPage) s = getflagTo o s := by
  cases o <;> rfl

theorem exec_storeC (s : State) (o : Operand) :
    exec (atForm o .stDirectC .stPtrC .stPageC) s = writeOperand s o s.c := by
  cases o <;> rfl

theorem exec_inTo (s : State) (o : Operand) : exec (atForm o .inDirect .inPtr .inPage) s = inTo o s := by
  cases o <;> rfl

theorem exec_copyToACStep (s : State) (o : Operand) :
    exec (atForm o .stacpDirect .stacpPtr .stacpPage) s = copyToACStep o s := by
  cases o <;> rfl

/-! ### Rows that read a byte, write it back, and update registers -/

/-- The instruction reads the byte of the operand, writes `k` of it back, and then updates by `g`. -/
def Modifies (i : Instr) (s : State) (o : Operand) (k : Byte → Byte) (g : Byte → State → State) : Prop :=
  exec i s = onNext (readOperand s o) fun r => onNext (writeOperand r.2 o (k r.1)) fun w => .next (g r.1 w)

/-- The instruction modifies the operand, and of the registers and flags writes CF and ZF at most. -/
def ModifiesFlagsOnly (i : Instr) (s : State) (o : Operand) : Prop :=
  ∃ k g, Modifies i s o k g ∧ ∀ b w, g b w = { w with cf := (g b w).cf, zf := (g b w).zf }

/-- The instruction modifies the operand, moves the byte read to A and the old A to B, and writes CF and ZF at most. -/
def ModifiesExchanging (i : Instr) (s : State) (o : Operand) : Prop :=
  ∃ k g, Modifies i s o k g ∧ ∀ b w, g b w = { w with cf := (g b w).cf, zf := (g b w).zf, a := b, b := s.a }

theorem modifies_of_shift {f : Byte → WithCarry} (h : exec i s = shiftMemory f o s) : ModifiesFlagsOnly i s o :=
  ⟨fun b => (f b).result, fun b w => setCarry w (f b), h, fun _ _ => rfl⟩

theorem modifies_of_logic {f : Byte → Byte → Byte} (h : exec i s = logicMemory f o s) : ModifiesFlagsOnly i s o :=
  ⟨fun b => f b (registerOperand s o), fun b w => setZero w (f b (registerOperand s o)), h, fun _ _ => rfl⟩

theorem modifies_of_arith {f : Byte → WithCarry} (h : exec i s = arithMemory f o s) : ModifiesFlagsOnly i s o :=
  ⟨fun b => (f b).result, fun b w => setCarryZero w (f b), h, fun _ _ => rfl⟩

theorem modifies_of_exchange {f : Byte → WithCarry} (h : exec i s = arithExchange f o s) : ModifiesExchanging i s o :=
  ⟨fun b => (f b).result, fun b w => { setCarryZero w (f b) with a := b, b := s.a }, h, fun _ _ => rfl⟩

theorem modifies_dec (s : State) (o : Operand) : ModifiesFlagsOnly (atForm o .decDirect .decPtr .decPage) s o := by
  by_cases hkeep : o = .direct 124 ∨ o = .direct 125
  · exact ⟨fun b => (sub8 b 1 false).result, fun b w => setZero w (sub8 b 1 false).result,
      (exec_dec s o).trans (if_pos hkeep), fun _ _ => rfl⟩
  · exact modifies_of_arith ((exec_dec s o).trans (if_neg hkeep))

theorem modifyRows_modify (s : State) (o : Operand) : ∀ f ∈ modifyRows, ModifiesFlagsOnly (formOf f o) s o := by
  simp only [modifyRows, List.forall_mem_cons]
  refine ⟨modifies_of_shift (f := shiftLeft false) ?shl, modifies_of_shift (f := shiftRight false) ?shr,
    modifies_of_shift (f := shiftLeft s.cf) ?shlc, modifies_of_shift (f := shiftRight s.cf) ?shrc,
    modifies_of_arith (f := (add8 · 1 false)) ?inc, modifies_of_arith (f := (add8 · 0 s.cf)) ?incc,
    modifies_dec s o, modifies_of_arith (f := (sub8 · 0 s.cf)) ?decc,
    modifies_of_logic (f := (· &&& ·)) ?and, modifies_of_logic (f := (· ^^^ ·)) ?xor,
    modifies_of_logic (f := (· ||| ·)) ?or,
    modifies_of_arith (f := (add8 · (registerOperand s o) false)) ?add,
    modifies_of_arith (f := (add8 · (registerOperand s o) s.cf)) ?addc,
    modifies_of_arith (f := (sub8 · (registerOperand s o) false)) ?sub,
    modifies_of_arith (f := (sub8 · (registerOperand s o) s.cf)) ?subc, List.forall_mem_nil _⟩ <;>
  cases o <;> rfl

theorem exchangeRows_modify (s : State) (o : Operand) : ∀ f ∈ exchangeRows, ModifiesExchanging (formOf f o) s o := by
  simp only [exchangeRows, List.forall_mem_cons]
  refine ⟨modifies_of_exchange (f := (add8 · 1 false)) ?incx, modifies_of_exchange (f := (add8 · 0 s.cf)) ?incxc,
    modifies_of_exchange (f := (sub8 · 1 false)) ?decx, modifies_of_exchange (f := (sub8 · 0 s.cf)) ?decxc,
    List.forall_mem_nil _⟩ <;>
  cases o <;> rfl

section
variable {k : Byte → Byte} {g : Byte → State → State}

theorem Modifies.violating (h : Modifies i s o k g) (hv : operandViolates s o = true) :
    exec i s = .next (g (freeByteNow s) (afterDraw (raiseViolation s))) :=
  h.trans (modify_eq_next.2 (.inl ⟨hv, rfl⟩))

theorem Modifies.suppressed (h : Modifies i s o k g) (hr : Readable s o) (hw : writeSuppressed s = true) :
    exec i s = .next (g (operandByte s o) s) :=
  h.trans (modify_eq_next.2 (.inr (.inl ⟨hr, hw, rfl⟩)))

end

/-! ### Rows that begin with a read -/

/-- The instruction begins with a read of the operand. -/
def ReadsFirst (i : Instr) (s : State) (o : Operand) : Prop := ∃ k, exec i s = onNext (readOperand s o) k

/-- The instruction reads a source from memory and writes A, CF and ZF at most. -/
def ReadsIntoA (i : Instr) (s : State) (o : Operand) : Prop :=
  ∃ g : Byte → State → State, exec i s = (onNext (readOperand s o) fun r => .next (g r.1 r.2)) ∧
    ∀ b w, g b w = { w with a := (g b w).a, cf := (g b w).cf, zf := (g b w).zf }

theorem readsIntoA_of_logic {f : Byte → Byte → Byte} (h : exec i s = logicAFrom f (.memory o) s) : ReadsIntoA i s o :=
  ⟨fun b w => logicA f b w, h, fun _ _ => rfl⟩

theorem readsIntoA_of_arith {f : Byte → WithCarry} (h : exec i s = arithAFrom f (.memory o) s) : ReadsIntoA i s o :=
  ⟨fun b w => { setCarryZero w (f b) with a := (f b).result }, h, fun _ _ => rfl⟩

theorem sourceDirectRows_read (s : State) (m : BitVec 7) : ∀ g ∈ sourceDirectRows, ReadsIntoA (g m) s (.direct m) := by
  simp only [sourceDirectRows, List.forall_mem_cons]
  exact ⟨readsIntoA_of_logic (f := (· &&& ·)) rfl, readsIntoA_of_logic (f := (· ^^^ ·)) rfl,
    readsIntoA_of_logic (f := (· ||| ·)) rfl, readsIntoA_of_arith (f := (add8 s.a · false)) rfl,
    readsIntoA_of_arith (f := (add8 s.a · s.cf)) rfl, readsIntoA_of_arith (f := (sub8 · s.a false)) rfl,
    readsIntoA_of_arith (f := (sub8 · s.a s.cf)) rfl, List.forall_mem_nil _⟩

theorem sourcePageRows_read (s : State) (m : BitVec 7) : ∀ g ∈ sourcePageRows, ReadsIntoA (g m) s (.page m) := by
  simp only [sourcePageRows, List.forall_mem_cons]
  exact ⟨readsIntoA_of_logic (f := (· &&& ·)) rfl, readsIntoA_of_logic (f := (· ^^^ ·)) rfl,
    readsIntoA_of_logic (f := (· ||| ·)) rfl, readsIntoA_of_arith (f := (add8 s.a · false)) rfl,
    readsIntoA_of_arith (f := (add8 s.a · s.cf)) rfl, readsIntoA_of_arith (f := (sub8 · s.a false)) rfl,
    readsIntoA_of_arith (f := (sub8 · s.a s.cf)) rfl, List.forall_mem_nil _⟩

theorem readRows_read (s : State) (o : Operand) : ∀ f ∈ readRows, ReadsFirst (formOf f o) s o := by
  simp only [readRows, List.forall_mem_cons]
  exact ⟨⟨_, exec_loadA s o⟩, ⟨_, exec_loadB s o⟩, ⟨_, exec_loadC s o⟩, ⟨_, exec_loadExchange s o⟩,
    ⟨_, exec_setflagFrom s o⟩, ⟨_, exec_outFrom s o⟩, List.forall_mem_nil _⟩

theorem ReadsIntoA.readsFirst (h : ReadsIntoA i s o) : ReadsFirst i s o := by
  obtain ⟨g, h, -⟩ := h
  exact ⟨_, h⟩

theorem modifyAndReadRows_read (s : State) (o : Operand) :
    ∀ f ∈ modifyRows ++ exchangeRows ++ readRows, ReadsFirst (formOf f o) s o := by
  simp only [List.forall_mem_append]
  refine ⟨⟨fun f hf => ?_, fun f hf => ?_⟩, readRows_read s o⟩
  · obtain ⟨k, g, h, -⟩ := modifyRows_modify s o f hf
    exact ⟨_, h⟩
  · obtain ⟨k, g, h, -⟩ := exchangeRows_modify s o f hf
    exact ⟨_, h⟩

end

/-! ### Suppressed writes -/

/-- Settles O54: nothing that executes in user mode after PMEMACC writes memory (`Confined`), and a row that modifies its operand
completes by its update alone, which writes no AE. -/
theorem suppressedWritesStoreNothing : Obligations.SuppressedWritesStoreNothing := by
  refine ⟨fun i s t hw ht p => ?_, List.forall_mem_append.2 ⟨fun f hf s o hw hr => ?_, fun f hf s o hw hr => ?_⟩⟩
  · obtain ⟨-, huser⟩ := writeSuppressed_eq_true.1 hw
    rw [(exec_confined huser ht).suppressed hw]
  · obtain ⟨k, g, h, hg⟩ := modifyRows_modify s o f hf
    exact ⟨_, h.suppressed hr hw, (congrArg State.ae (hg _ s) :)⟩
  · obtain ⟨k, g, h, hg⟩ := exchangeRows_modify s o f hf
    exact ⟨_, h.suppressed hr hw, (congrArg State.ae (hg _ s) :)⟩

/-! ### Violating reads -/

/-- Settles O51: the read delivers the free byte, and each row goes on with it. -/
theorem violatingReadsRaiseAndDeliverAnyByte : Obligations.ViolatingReadsRaiseAndDeliverAnyByte := by
  refine fun s => ⟨fun o hv => ?_, fun f hf m hv => ?_⟩
  · have hr := readOperand_violating hv
    rw [exec_loadA, exec_loadB, exec_loadC, exec_loadExchange, exec_outFrom, exec_setflagFrom]
    simp only [loadA, loadB, loadC, loadExchange, outFrom, setflagFrom, hr, onNext_next, hv, Bool.true_or, if_true]
    exact ⟨rfl, rfl, rfl, rfl, rfl, _, rfl, rfl⟩
  · obtain ⟨g, h, hg⟩ := sourcePageRows_read s m f hf
    rw [readOperand_violating hv] at h
    exact ⟨_, h, hg _ _⟩

/-! ### Violating modifications -/

section
variable {s w : State}

/-- A compound loop whose memory operation completes without touching the counters goes on with the loop (R331, R336). -/
theorem loopCompound_next {op : State → Out} {k : Byte} {self : Counter} (hop : op s = .next w) (hcfg : w.cfg = s.cfg)
    (hctr : ctr w = ctr s)
    (hself : s.cfg.loop0Repeat = .repeatSelf ∧ self = nxtPlus s (-2) ∨
      s.cfg.loop0Repeat = .fallthrough ∧ self = ctr s) :
    loopCompound op k s = .next (loopStep self k w) := by
  have hself_addr : selfAddr w = nxtPlus s (-2) := by
    rw [selfAddr, relativeTarget_eq, nxtPlus, nxtPlus, hctr, hcfg]
    rfl
  refine loopCompound_eq_next.2 ⟨?_, w, hop, loopZeroOffset_eq_next.2 ?_⟩
  · rcases hself with ⟨h, -⟩ | ⟨h, -⟩ <;> simp [h]
  · rw [hcfg, hself_addr, hctr]
    exact hself.imp (fun ⟨h, he⟩ => ⟨h, he ▸ rfl⟩) fun ⟨h, he⟩ => ⟨h, he ▸ rfl⟩

theorem shiftAtAB_violating (f : Byte → WithCarry) (h : operandViolates s .ptr = true) :
    shiftAtAB f s = .next (setCarry (afterRead s true (s.draws + 1)) (f (freeByteNow s))) :=
  shiftMemory_eq_next.2 (.inl ⟨h, rfl⟩)

end

/-- Settles O52: with the read violating the write violates too, and what is left is the update of the registers. -/
theorem violatingModificationsStoreNothing : Obligations.ViolatingModificationsStoreNothing := by
  refine fun s => ⟨fun f hf o hv => ?_, fun f hf o hv => ?_, fun self hv hself => ⟨?_, ?_, ?_⟩⟩
  · obtain ⟨k, g, h, hg⟩ := modifyRows_modify s o f hf
    exact ⟨_, h.violating hv, hg _ _⟩
  · obtain ⟨k, g, h, hg⟩ := exchangeRows_modify s o f hf
    exact ⟨_, h.violating hv, hg _ _⟩
  · exact loopCompound_next (op := (writeOperand · .ptr 0)) (writeOperand_violating hv 0) rfl rfl hself
  · rw [BitVec.sub_eq_add_neg s.b 1]
    exact loopCompound_next (shiftAtAB_violating (shiftRight s.cf) hv) rfl rfl hself
  · exact loopCompound_next (shiftAtAB_violating (shiftLeft s.cf) hv) rfl rfl hself

/-! ### Violating stores and copies -/

section
variable {s w : State} {o : Operand} {b : Byte} {d : DataAddr} {r : Out}

/-! A copy is its read, and the answer of its write of the byte read, in the state the read left. -/

theorem copyToACStep_of_write (h : readOperand s o = .next (b, w)) (hw : checkedWrite w (addrAC s) b = r) :
    copyToACStep o s = onNext r fun t => .next { t with b := s.b + 1, c := s.c + 1 } := by
  rw [copyToACStep, h, onNext_next, hw]

theorem copyToAB_of_write (h : readOperand s o = .next (b, w)) (hw : checkedWrite w (pair s.a s.b) b = r) :
    copyToAB o s = r := by
  rw [copyToAB, h, onNext_next, hw]

theorem copyToABStep_of_write (h : readOperand s o = .next (b, w)) (hw : checkedWrite w (pair s.a s.b) b = r) :
    copyToABStep o s = onNext r fun t => .next { t with b := s.b + 1 } := by
  rw [copyToABStep, copyToAB_of_write h hw]

theorem execStacPtr_of_write (h : readOperand s .ptr = .next (b, w)) (hw : checkedWrite w (addrAC s) b = r) :
    execStacPtr s = r := by
  rw [execStacPtr, h, onNext_next, hw]

theorem execStzcpPtr_of_write (h : readOperand s .ptr = .next (b, w)) (hw : dataWrite w (addrC s) b = r) :
    execStzcpPtr s = onNext r fun t => .next { t with b := s.b + 1, c := s.c + 1 } := by
  rw [execStzcpPtr, h, onNext_next, hw]

/-- The port events and the script after a port read, in the words of the statements (R350, R351). -/
theorem afterPortRead_eq (s : State) (port : Byte) :
    afterPortRead s port = { s with
      portIn := s.portIn.tail
      draws := if s.portIn = [] then s.draws + 1 else s.draws
      io := s.io ++ [.input port (portByte s)] } := by
  simp only [afterPortRead, List.isEmpty_iff]

/-- The port is read also where the write violates (R351). -/
theorem inTo_violating (h : operandViolates s o = true) : inTo o s = .next (raiseViolation (afterPortRead s s.c)) := by
  have hport : operandViolates (afterPortRead s s.c) o = true := by
    cases o <;> exact h
  exact writeOperand_violating hport _

end

/-- Settles O53: a copy is its read, which delivers the byte there or the free byte, and then its write, which violates or
stores. -/
theorem violatingStoresAndCopiesStoreNothing : Obligations.ViolatingStoresAndCopiesStoreNothing := by
  intro s
  refine ⟨fun m hv => writeOperand_violating hv _, fun o hv => ⟨?st, ?getflag, portByte s, ?inPort⟩,
    fun hd => ⟨fun o hr => ?stacpTo, fun hr => ?stacTo⟩, fun hd m => ⟨fun hr => ?directTo, fun hr => ?pageTo⟩,
    fun hd o hv => ?stacpFrom, fun hd hv => ?stacFrom, fun hd m hv => ?pageFrom,
    fun hd => ⟨fun o hv => ?stacpBoth, fun hv => ?stacBoth⟩, fun hd m hv => ?pageBoth, fun hv hi hw => ?stzcp⟩
  case st => exact (exec_storeC s o).trans (writeOperand_violating hv _)
  case getflag => exact (exec_getflagTo s o).trans (writeOperand_violating hv _)
  case inPort =>
    rw [exec_inTo, inTo_violating hv, afterPortRead_eq]
    rfl
  case stacpTo =>
    exact (exec_copyToACStep s o).trans
      (copyToACStep_of_write (readOperand_readable hr) (checkedWrite_violating hd _))
  case stacTo => exact execStacPtr_of_write (readOperand_readable hr) (checkedWrite_violating hd _)
  case directTo | pageTo =>
    exact ⟨copyToAB_of_write (readOperand_readable hr) (checkedWrite_violating hd _),
      copyToABStep_of_write (readOperand_readable hr) (checkedWrite_violating hd _)⟩
  case stacpFrom =>
    exact completesStoring_of_exec ((exec_copyToACStep s o).trans
      (copyToACStep_of_write (readOperand_violating hv) (writeAfterRead_reaches hd)))
  case stacFrom =>
    exact completesStoring_of_exec (execStacPtr_of_write (readOperand_violating hv) (writeAfterRead_reaches hd))
  case pageFrom =>
    exact ⟨completesStoring_of_exec (copyToAB_of_write (readOperand_violating hv) (writeAfterRead_reaches hd)),
      completesStoring_of_exec (copyToABStep_of_write (readOperand_violating hv) (writeAfterRead_reaches hd))⟩
  case stacpBoth =>
    exact (exec_copyToACStep s o).trans
      (copyToACStep_of_write (readOperand_violating hv) (writeAfterRead_violating hd))
  case stacBoth => exact execStacPtr_of_write (readOperand_violating hv) (writeAfterRead_violating hd)
  case pageBoth =>
    exact ⟨copyToAB_of_write (readOperand_violating hv) (writeAfterRead_violating hd),
      copyToABStep_of_write (readOperand_violating hv) (writeAfterRead_violating hd)⟩
  case stzcp =>
    exact completesStoring_of_exec
      (execStzcpPtr_of_write (readOperand_violating hv) (uncheckedWriteAfterRead_installed hw hi))

/-! ### Absent memory -/

section
variable {s w : State} {o : Operand} {i : Instr} {b : Byte} {m : BitVec 7}

theorem ReadsFirst.absent (h : ReadsFirst i s o) (hv : operandViolates s o = false)
    (ha : s.cfg.memBytes ≤ operandAddr s o) : exec i s = .refused (.absentMemory (operandAddr s o)) := by
  obtain ⟨k, h⟩ := h
  rw [h, readOperand_absent hv ha, onNext_refused]

/-- The instruction begins with a write of the operand, after a port read at most. -/
def WritesFirst (i : Instr) (s : State) (o : Operand) : Prop :=
  ∃ b, exec i s = writeOperand s o b ∨ exec i s = writeOperand (afterPortRead s s.c) o b

theorem WritesFirst.absent (h : WritesFirst i s o) (hw : writeSuppressed s = false) (hv : operandViolates s o = false)
    (ha : s.cfg.memBytes ≤ operandAddr s o) : exec i s = .refused (.absentMemory (operandAddr s o)) := by
  obtain ⟨b, h | h⟩ := h
  · rw [h, writeOperand_absent hw hv ha]
  · have hport : operandViolates (afterPortRead s s.c) o = operandViolates s o := by
      cases o <;> rfl
    have haddr : operandAddr (afterPortRead s s.c) o = operandAddr s o := by
      cases o <;> rfl
    rw [h, writeOperand_absent (s := afterPortRead s s.c) hw (hport.trans hv) (haddr ▸ ha), haddr]

theorem storeRows_write (s : State) (o : Operand) : ∀ f ∈ storeRows, WritesFirst (formOf f o) s o := by
  simp only [storeRows, List.forall_mem_cons]
  exact ⟨⟨_, .inl (exec_getflagTo s o)⟩, ⟨_, .inl (exec_storeC s o)⟩, ⟨_, .inr (exec_inTo s o)⟩, List.forall_mem_nil _⟩

/-- A loop whose operation on `[A:B]` is refused is refused alike, where the loop itself is not (R331). -/
theorem loopCompound_refused {op : State → Out} {k : Byte} {e : Refusal} (hloop : s.cfg.loop0Repeat ≠ .refuse)
    (h : op s = .refused e) : loopCompound op k s = .refused e := by
  rw [loopCompound, if_neg hloop, h, onNext_refused]

theorem shiftAtAB_absent (f : Byte → WithCarry) (hv : operandViolates s .ptr = false)
    (ha : s.cfg.memBytes ≤ operandAddr s .ptr) :
    shiftAtAB f s = .refused (.absentMemory (operandAddr s .ptr)) := by
  rw [shiftAtAB, readOperand_absent hv ha, onNext_refused]

theorem execReti_absent (hif : s.ifBit = true) (ha : s.cfg.memBytes ≤ operandAddr s (.direct m)) :
    execReti m s = .refused (.absentMemory (operandAddr s (.direct m))) := by
  have hread : dataRead s (windowAddr s m) = .refused (.absentMemory (operandAddr s (.direct m))) := dataRead_absent ha
  rw [execReti, if_pos hif, hread, onNext_refused]

theorem execMulx_absent (hmulx : s.cfg.hasMulx = true) (ha : s.cfg.memBytes ≤ physData s (windowAddr s 0)) :
    execMulx s = .refused (.absentMemory (physData s (windowAddr s 0))) := by
  rw [execMulx, if_pos hmulx, dataRead_absent ha, onNext_refused]

/-! ### Hard macro entry -/

/-- Outside an interrupt and millicode, a hard macro entry is its store at `[0]` and the update (R370). -/
theorem execHmacro_of_write {p : BitVec 6} {xx : Byte} {r : Out} (hif : s.ifBit = false) (hmf : s.mf = false)
    (h : dataWrite s (windowAddr s 0) xx = r) :
    execHmacro p xx s = onNext r fun t => .next { t with c := xx, mc := macroEntry s.cfg p, mf := true } := by
  simp only [execHmacro, hif, hmf, h, Bool.false_eq_true, if_false]

end

/-- Settles O49: the store of the entry where it is made and where it is suppressed; the two refusals come before it. -/
theorem hardMacroEntryCompletes : Obligations.HardMacroEntryCompletes := by
  refine fun s p xx => ⟨fun hif hmf hi hw => ?_, fun hif hmf hw => ?_, fun hif => if_pos hif, fun hif hmf => ?_⟩
  · exact completesStoring_of_exec (execHmacro_of_write hif hmf (dataWrite_installed hw hi xx))
  · exact execHmacro_of_write hif hmf (dataWrite_suppressed hw xx)
  · exact (if_neg (hif ▸ Bool.false_ne_true)).trans (if_pos hmf)

/-- Settles O55: an instruction whose first access meets absent memory is refused with its address, and a copy whose read is
done is refused with the address of its destination. -/
theorem absentMemoryStopsTheMachine : Obligations.AbsentMemoryStopsTheMachine := by
  refine ⟨fun s o hv ha => ⟨?modify, ?stacp, ?store, ?direct, ?page, ?ptr, ?write⟩, fun s hw => ⟨fun hv ha => ⟨fun o hr => ?_, fun hr => ?_⟩,
    fun hv ha m => ⟨fun hr => ?_, fun hr => ?_⟩, fun ha hr => ?_, fun hif hmf ha p xx => ?_⟩, fun s hmulx ha => ?_⟩
  case modify => exact fun f hf => (modifyAndReadRows_read s o f hf).absent hv ha
  case stacp => exact ReadsFirst.absent ⟨_, exec_copyToACStep s o⟩ hv ha
  case store => exact fun hw f hf => (storeRows_write s o f hf).absent hw hv ha
  case direct =>
    rintro m rfl
    exact ⟨fun g hg => (sourceDirectRows_read s m g hg).readsFirst.absent hv ha, ReadsFirst.absent ⟨_, rfl⟩ hv ha,
      ReadsFirst.absent ⟨_, onNext_assoc _ _ _⟩ hv ha, fun hif => execReti_absent hif ha⟩
  case page =>
    rintro m rfl
    exact ⟨fun g hg => (sourcePageRows_read s m g hg).readsFirst.absent hv ha, ReadsFirst.absent ⟨_, rfl⟩ hv ha,
      ReadsFirst.absent ⟨_, onNext_assoc _ _ _⟩ hv ha⟩
  case ptr =>
    rintro rfl
    exact ⟨ReadsFirst.absent ⟨_, rfl⟩ hv ha, ReadsFirst.absent ⟨_, rfl⟩ hv ha, fun hloop =>
      ⟨loopCompound_refused hloop (shiftAtAB_absent _ hv ha), loopCompound_refused hloop (shiftAtAB_absent _ hv ha),
        fun hw => loopCompound_refused (op := (writeOperand · .ptr 0)) hloop (writeOperand_absent hw hv ha 0)⟩⟩
  case write =>
    refine fun hw m => ⟨?_, ?_⟩
    · rintro rfl
      exact ⟨writeOperand_absent hw hv ha _, writeOperand_absent hw hv ha _, writeOperand_absent hw hv ha _⟩
    · rintro rfl
      exact writeOperand_absent hw hv ha _
  · obtain ⟨b, ae, draws, hr⟩ := readOperand_completes hr
    exact (exec_copyToACStep s o).trans (copyToACStep_of_write hr (writeAfterRead_absent hw hv ha))
  · obtain ⟨b, ae, draws, hr⟩ := readOperand_completes hr
    exact execStacPtr_of_write hr (writeAfterRead_absent hw hv ha)
  · obtain ⟨b, ae, draws, hr⟩ := readOperand_completes (.inr hr)
    exact ⟨copyToAB_of_write hr (writeAfterRead_absent hw hv ha),
      copyToABStep_of_write hr (writeAfterRead_absent hw hv ha)⟩
  · obtain ⟨b, ae, draws, hr⟩ := readOperand_completes hr
    exact ⟨copyToAB_of_write hr (writeAfterRead_absent hw hv ha),
      copyToABStep_of_write hr (writeAfterRead_absent hw hv ha)⟩
  · obtain ⟨b, ae, draws, hr⟩ := readOperand_completes hr
    exact execStzcpPtr_of_write hr (uncheckedWriteAfterRead_absent hw ha)
  · exact execHmacro_of_write hif hmf (dataWrite_absent hw ha xx)
  · exact execMulx_absent hmulx ha

end Sys2Proof.Machine
end

section
/-!
PROOFS. The decoder and the encoder against the tables (spec/30_encoding.md R101 to R119, spec/46_opmsb_hardmacro.md R360 to
R374). A word is its four fields. Each OP code has one of a few shapes, and one lemma per shape says which operand bytes have a
row and that the decoder answers that row (`Agrees`). The readings of opmsb and of the bit for hard macros are put around that.
The encoder is read back row by row through the equations of the same shapes (`ReadsBack`).
-/

namespace Sys2Proof.Machine

open Sys2Proof Sys2Proof.Laws

/-! ### Words and their fields -/

section
variable {w v : InstrWord} {m : Bool} {op : BitVec 6} {xx : Byte}

/-- A word is its four fields (R101). -/
theorem word_ext (hopmsb : opmsbOf v = opmsbOf w) (hmacro : macroOf v = macroOf w) (hop : opOf v = opOf w)
    (hxx : xxOf v = xxOf w) : v = w := by
  apply BitVec.eq_of_getLsbD_eq
  intro k hk
  rcases (by omega : k < 8 ∨ 8 ≤ k ∧ k < 14 ∨ k = 14 ∨ k = 15) with h8 | ⟨h8, h14⟩ | rfl | rfl
  · simpa [xxOf, h8] using congrArg (·.getLsbD k) hxx
  · simpa [opOf, BitVec.getLsbD_extractLsb', Nat.add_sub_cancel' h8, (by omega : k - 8 < 6)] using
      congrArg (·.getLsbD (k - 8)) hop
  · exact hmacro
  · exact hopmsb

theorem instrWord_fields (w : InstrWord) : instrWord (opmsbOf w) (macroOf w) (opOf w) (xxOf w) = w := by
  apply word_ext <;> simp

theorem getLsbD_withOpmsb (w : InstrWord) (k : Nat) :
    (withOpmsb w).getLsbD k = (w.getLsbD k || decide (15 = k)) :=
  (BitVec.getLsbD_or ..).trans (congrArg (w.getLsbD k || ·) (BitVec.getLsbD_twoPow (w := 16) 15 k))

theorem withOpmsb_instrWord : withOpmsb (instrWord false m op xx) = instrWord true m op xx := by
  apply BitVec.eq_of_getLsbD_eq
  intro k hk
  rw [getLsbD_withOpmsb, getLsbD_instrWord, getLsbD_instrWord]
  rcases (by omega : k < 14 ∨ k = 14 ∨ k = 15) with h14 | rfl | rfl
  · rw [if_pos h14, decide_eq_false (by omega), Bool.or_false, if_pos h14]
  · cases m <;> rfl
  · cases m <;> rfl

end

/-! ### Operand bytes -/

section
variable {α : Type} {m : BitVec 7} {xx : Byte} {direct page : BitVec 7 → α} {ptr : α}

theorem toNat_formByte (b : BitVec 1) (m : BitVec 7) : (b ++ m).toNat = 128 * b.toNat + m.toNat := by
  rw [BitVec.toNat_append, ← Nat.shiftLeft_add_eq_or_of_lt m.isLt, Nat.shiftLeft_eq, Nat.mul_comm]

theorem toNat_directByte (m : BitVec 7) : (0#1 ++ m).toNat = m.toNat := (toNat_formByte 0#1 m).trans (Nat.zero_add _)

theorem toNat_pageByte (m : BitVec 7) : (1#1 ++ m).toNat = 128 + m.toNat := toNat_formByte 1#1 m

theorem mOf_formByte (b : BitVec 1) (m : BitVec 7) : mOf (b ++ m) = m := BitVec.extractLsb'_append_eq_right

theorem toNat_mOf (xx : Byte) : (mOf xx).toNat = xx.toNat % 128 := by simp [mOf]

theorem direct_mOf (h : xx.toNat ≤ 127) : 0#1 ++ mOf xx = xx :=
  BitVec.eq_of_toNat_eq (by rw [toNat_directByte, toNat_mOf]; omega)

theorem page_mOf (h : 128 ≤ xx.toNat) : 1#1 ++ mOf xx = xx :=
  BitVec.eq_of_toNat_eq (by rw [toNat_pageByte, toNat_mOf]; omega)

theorem toNat_le_126 (h : m ≠ 127) : m.toNat ≤ 126 := by
  have hm : m.toNat ≠ 127 := fun hm => h (BitVec.eq_of_toNat_eq hm)
  omega

theorem mOf_ne_127 (h : xx.toNat ≤ 126) : mOf xx ≠ 127 := fun hm => by
  have hxx : (mOf xx).toNat = 127 := congrArg BitVec.toNat hm
  rw [toNat_mOf] at hxx
  omega

theorem byForm_direct (h : m ≠ 127) : byForm (0#1 ++ m) direct ptr page = direct m := by
  have hm : (0#1 ++ m).toNat ≤ 126 := (toNat_directByte m).trans_le (toNat_le_126 h)
  rw [byForm, if_pos hm, mOf_formByte]

theorem byForm_page : byForm (1#1 ++ m) direct ptr page = page m := by
  have hm : 128 ≤ (1#1 ++ m).toNat := toNat_pageByte m ▸ Nat.le_add_right ..
  rw [byForm, if_neg (by omega), if_neg (by omega), mOf_formByte]

/-- The choice by form is the direct row for the bytes 0 to 126, the row at 127, or the page row from 128 (R68, R102). -/
theorem byForm_cases {P : α → Prop} (hdirect : xx.toNat ≤ 126 → P (direct (mOf xx))) (hptr : xx.toNat = 127 → P ptr)
    (hpage : 128 ≤ xx.toNat → P (page (mOf xx))) : P (byForm xx direct ptr page) := by
  unfold byForm
  split
  · next h => exact hdirect h
  · split
    · next h => exact hptr h
    · exact hpage (by omega)

end

/-! ### The rows of one OP code -/

/-- The pair under this opmsb is that of a row, and the instruction is the row's at this operand (R109, R110, R113). -/
def EncodedBy (o : Bool) (op : BitVec 6) (xx : Byte) (i : Instr) : Prop :=
  i.wf = true ∧ encode i = instrWord o false op xx

/-- The decoder's answer for a pair agrees with the tables: the instruction that the pair encodes, or a refusal where they have no
row (R112, R113). -/
def Agrees (op : BitVec 6) (xx : Byte) (r : Except DecodeError Instr) : Prop :=
  match r with
  | .ok i => ¬UndefinedPair op xx ∧ EncodedBy false op xx i
  | .error _ => UndefinedPair op xx

/-- The OP codes under which some operand byte has no row. -/
def opsWithGaps : List (BitVec 6) :=
  [0x01, 0x06, 0x07, 0x0F, 0x10, 0x11, 0x12, 0x13, 0x14, 0x15, 0x16, 0x17, 0x18, 0x19, 0x1A, 0x1B, 0x1C, 0x1F, 0x38, 0x39]

section
variable {o : Bool} {op : BitVec 6} {xx : Byte} {direct page : BitVec 7 → Instr} {rel : Byte → Instr}
  {ptr c0 c1 z0 z1 viaB atZero at127 : Instr} {e : DecodeError}

theorem UndefinedPair.mem_opsWithGaps (h : UndefinedPair op xx) : op ∈ opsWithGaps := by
  have hrelative : ∀ op : BitVec 6, 0x12 ≤ op.toNat → op.toNat ≤ 0x1B → op ∈ opsWithGaps := by decide
  rcases h with rfl | rfl | ⟨rfl, -⟩ | ⟨rfl | rfl, -⟩ | ⟨rfl | rfl, -⟩ | ⟨hlo, hhi, -⟩ | ⟨rfl, -⟩ | ⟨rfl | rfl, -⟩
  case inr.inr.inr.inr.inr.inl => exact hrelative op hlo hhi
  all_goals decide

theorem not_undefinedPair (h : op ∉ opsWithGaps) : ¬UndefinedPair op xx := mt UndefinedPair.mem_opsWithGaps h

theorem EncodedBy.direct_mOf (h : xx.toNat ≤ 127) (hi : EncodedBy o op (0#1 ++ mOf xx) (direct (mOf xx))) :
    EncodedBy o op xx (direct (mOf xx)) := by
  rwa [Sys2Proof.Machine.direct_mOf h] at hi

theorem EncodedBy.page_mOf (h : 128 ≤ xx.toNat) (hi : EncodedBy o op (1#1 ++ mOf xx) (page (mOf xx))) :
    EncodedBy o op xx (page (mOf xx)) := by
  rwa [Sys2Proof.Machine.page_mOf h] at hi

theorem EncodedBy.of_toNat {n : Byte} {i : Instr} (hi : EncodedBy o op n i) (h : xx.toNat = n.toNat) : EncodedBy o op xx i :=
  BitVec.eq_of_toNat_eq h ▸ hi

theorem encodedBy_byForm (hdirect : ∀ m, m ≠ 127 → EncodedBy o op (0#1 ++ m) (direct m)) (hptr : EncodedBy o op 0x7F ptr)
    (hpage : ∀ m, EncodedBy o op (1#1 ++ m) (page m)) : EncodedBy o op xx (byForm xx direct ptr page) :=
  byForm_cases (fun h => .direct_mOf (by omega) (hdirect _ (mOf_ne_127 h))) (fun h => hptr.of_toNat h) fun h =>
    .page_mOf h (hpage _)

theorem agrees_store (hgap : UndefinedPair op xx ↔ xx.toNat = 127)
    (hdirect : ∀ m, m ≠ 127 → EncodedBy false op (0#1 ++ m) (direct m))
    (hpage : ∀ m, EncodedBy false op (1#1 ++ m) (page m)) :
    Agrees op xx (byForm xx (fun m => .ok (direct m)) (.error e) fun m => .ok (page m)) :=
  byForm_cases (P := Agrees op xx) (fun h => ⟨mt hgap.1 (by omega), .direct_mOf (by omega) (hdirect _ (mOf_ne_127 h))⟩) hgap.2
    fun h => ⟨mt hgap.1 (by omega), .page_mOf h (hpage _)⟩

theorem agrees_decodeAbsolute (hgap : UndefinedPair op xx ↔ xx.toNat = 126)
    (hdirect : ∀ m, m.toNat ≤ 121 → EncodedBy false op (0#1 ++ m) (direct m)) (hc0 : EncodedBy false op 122 c0)
    (hc1 : EncodedBy false op 123 c1) (hz0 : EncodedBy false op 124 z0) (hz1 : EncodedBy false op 125 z1)
    (hptr : EncodedBy false op 127 ptr) (hpage : ∀ m, EncodedBy false op (1#1 ++ m) (page m)) :
    Agrees op xx (decodeAbsolute op direct c0 c1 z0 z1 ptr page xx) := by
  have hm := toNat_mOf xx
  unfold decodeAbsolute
  split_ifs with h121 h122 h123 h124 h125 h126 h127
  · exact ⟨mt hgap.1 (by omega), .direct_mOf (by omega) (hdirect _ (by omega))⟩
  · exact ⟨mt hgap.1 (by omega), hc0.of_toNat h122⟩
  · exact ⟨mt hgap.1 (by omega), hc1.of_toNat h123⟩
  · exact ⟨mt hgap.1 (by omega), hz0.of_toNat h124⟩
  · exact ⟨mt hgap.1 (by omega), hz1.of_toNat h125⟩
  · exact hgap.2 h126
  · exact ⟨mt hgap.1 (by omega), hptr.of_toNat h127⟩
  · exact ⟨mt hgap.1 (by omega), .page_mOf (by omega) (hpage _)⟩

theorem agrees_decodeRelative (hgap : UndefinedPair op xx ↔ xx.toNat = 0x7F)
    (hrel : ∀ n, n ≠ 0x7F → n ≠ 0x80 → EncodedBy false op n (rel n)) (hviaB : EncodedBy false op 0x80 viaB) :
    Agrees op xx (decodeRelative op rel viaB xx) := by
  unfold decodeRelative
  split_ifs with h127 h128
  · exact hgap.2 h127
  · exact ⟨mt hgap.1 (by omega), hviaB.of_toNat h128⟩
  · exact ⟨mt hgap.1 (by omega), hrel xx (mt (congrArg BitVec.toNat) h127) (mt (congrArg BitVec.toNat) h128)⟩

theorem agrees_decodeLoop (hgap : UndefinedPair op xx ↔ xx.toNat = 0x80) (hzero : EncodedBy false op 0 atZero)
    (h127 : EncodedBy false op 0x7F at127)
    (hrel : ∀ n, n ≠ 0 → n ≠ 0x7F → n ≠ 0x80 → EncodedBy false op n (rel n)) :
    Agrees op xx (decodeLoop op atZero at127 rel xx) := by
  unfold decodeLoop
  split_ifs with hxx0 hxx127 hxx128
  · exact ⟨mt hgap.1 (by omega), hzero.of_toNat hxx0⟩
  · exact ⟨mt hgap.1 (by omega), h127.of_toNat hxx127⟩
  · exact hgap.2 hxx128
  · exact ⟨mt hgap.1 (by omega), hrel xx (mt (congrArg BitVec.toNat) hxx0) (mt (congrArg BitVec.toNat) hxx127)
      (mt (congrArg BitVec.toNat) hxx128)⟩

end

theorem agrees_reti (xx : Byte) :
    Agrees 0x1F xx (if xx.toNat ≤ 126 then .ok (.reti (mOf xx)) else .error (.retiForm xx)) := by
  have hgap : UndefinedPair 0x1F xx ↔ 127 ≤ xx.toNat := by simp [UndefinedPair]
  split_ifs with h
  · exact ⟨mt hgap.1 (by omega), .direct_mOf (by omega) ⟨bne_iff_ne.2 (mOf_ne_127 h), rfl⟩⟩
  · exact hgap.2 (by omega)

/-! The sub-codes of OP 01 have no such shape; the table of R110 is checked byte by byte. -/

theorem decodeSystem_eq_none_iff (xx : Byte) : (decodeSystem xx).toOption = none ↔ UndefinedPair 0x01 xx := by
  revert xx
  unfold UndefinedPair
  decide

theorem decodeSystem_encodedBy : ∀ xx : Byte, ∀ i ∈ (decodeSystem xx).toOption, EncodedBy false 0x01 xx i := by
  unfold EncodedBy
  decide

theorem agrees_decodeSystem (xx : Byte) : Agrees 0x01 xx (decodeSystem xx) := by
  have hgap := decodeSystem_eq_none_iff xx
  have hrow := decodeSystem_encodedBy xx
  cases h : decodeSystem xx with
  | error e => exact hgap.1 (h ▸ rfl)
  | ok i =>
    rw [h] at hgap hrow
    exact ⟨fun hu => Option.some_ne_none i (hgap.2 hu), hrow i rfl⟩

/-- The decoder's table of OP codes agrees with R109 to R113, row by row. -/
theorem agrees_decodeOrdinary (op : BitVec 6) (xx : Byte) : Agrees op xx (decodeOrdinary op xx) := by
  match op with
  | 0x01 => exact agrees_decodeSystem xx
  | 0x00 | 0x02 | 0x03 | 0x04 | 0x3B | 0x3D | 0x3F => exact ⟨not_undefinedPair (by decide), rfl, rfl⟩
  | 0x05 | 0x08 | 0x09 | 0x0A | 0x0B | 0x0C | 0x0D | 0x0E | 0x1D | 0x1E | 0x20 | 0x21 | 0x22 | 0x23 | 0x24 | 0x25 | 0x26 | 0x27
  | 0x28 | 0x29 | 0x2A | 0x2B | 0x2C | 0x2D | 0x2E | 0x2F | 0x30 | 0x31 | 0x32 | 0x33 | 0x34 | 0x35 | 0x36 | 0x37 | 0x3A | 0x3C
  | 0x3E =>
    exact ⟨not_undefinedPair (by decide),
      encodedBy_byForm (fun _ h => ⟨bne_iff_ne.2 h, rfl⟩) ⟨rfl, rfl⟩ fun _ => ⟨rfl, rfl⟩⟩
  | 0x06 | 0x07 =>
    exact agrees_store (by simp [UndefinedPair, BitVec.toNat_eq]) (fun _ h => ⟨bne_iff_ne.2 h, rfl⟩) fun _ => ⟨rfl, rfl⟩
  | 0x10 | 0x11 =>
    exact agrees_decodeAbsolute (by simp [UndefinedPair, BitVec.toNat_eq]) (fun _ h => ⟨decide_eq_true h, rfl⟩)
      ⟨rfl, rfl⟩ ⟨rfl, rfl⟩ ⟨rfl, rfl⟩ ⟨rfl, rfl⟩ ⟨rfl, rfl⟩ fun _ => ⟨rfl, rfl⟩
  | 0x12 | 0x13 | 0x14 | 0x15 | 0x16 | 0x17 | 0x18 | 0x19 | 0x1A | 0x1B =>
    exact agrees_decodeRelative (by simp [UndefinedPair, BitVec.toNat_eq])
      (fun _ h127 h128 => ⟨Bool.and_eq_true_iff.2 ⟨bne_iff_ne.2 h127, bne_iff_ne.2 h128⟩, rfl⟩) ⟨rfl, rfl⟩
  | 0x38 | 0x39 =>
    exact agrees_decodeLoop (by simp [UndefinedPair, BitVec.toNat_eq]) ⟨rfl, rfl⟩ ⟨rfl, rfl⟩
      fun _ h0 h127 h128 => ⟨Bool.and_eq_true_iff.2 ⟨Bool.and_eq_true_iff.2 ⟨bne_iff_ne.2 h0, bne_iff_ne.2 h127⟩,
        bne_iff_ne.2 h128⟩, rfl⟩
  | 0x1F => exact agrees_reti xx
  | 0x0F => exact .inl rfl
  | 0x1C => exact .inr (.inl rfl)
  | ⟨⟨n + 64, h⟩⟩ => exact absurd h (by omega)

theorem decodeOrdinary_encodedBy {op : BitVec 6} {xx : Byte} {i : Instr} (h : decodeOrdinary op xx = .ok i) :
    ¬UndefinedPair op xx ∧ EncodedBy false op xx i := by
  have hagrees := agrees_decodeOrdinary op xx
  rwa [h] at hagrees

theorem decodeOrdinary_error_iff (op : BitVec 6) (xx : Byte) :
    (∃ e, decodeOrdinary op xx = .error e) ↔ UndefinedPair op xx := by
  have hagrees := agrees_decodeOrdinary op xx
  cases h : decodeOrdinary op xx with
  | error e =>
    rw [h] at hagrees
    exact iff_of_true ⟨e, rfl⟩ hagrees
  | ok i => exact iff_of_false (fun ⟨_, he⟩ => nomatch he) (decodeOrdinary_encodedBy h).1

/-! ### The four fields select the reading -/

section
variable {c : Config} {mf ifBit o : Bool} {op : BitVec 6} {xx : Byte} {i : Instr} {e : DecodeError}

theorem decode_unmacroed : decode c mf ifBit (instrWord o false op xx) = decodeUnmacroed c o op xx := by
  simp [decode]

theorem decode_macro : decode c mf ifBit (instrWord o true op xx) =
    if c.extOpcodes then .error .extendedOpcode
    else if ifBit then .error .macroInInterrupt
    else if mf then .ok ⟨.macroEnd o op xx, .own⟩
    else if o then .error .opmsbOnMacroEntry
    else .ok ⟨.hmacro op xx, .own⟩ := by
  simp [decode]

theorem decodeUnmacroed_of_ok (h : decodeOrdinary op xx = .ok i) : decodeUnmacroed c false op xx = .ok ⟨i, .own⟩ := by
  rw [decodeUnmacroed, h]
  rfl

theorem decodeUnmacroed_of_error (h : decodeOrdinary op xx = .error e) : decodeUnmacroed c false op xx = .error e := by
  rw [decodeUnmacroed, h]
  rfl

theorem decodeUnmacroed_fast (h : c.opmsbMode = .fast) : decodeUnmacroed c true op xx = decodeFast op xx := if_pos h

theorem decodeUnmacroed_notFast (h : c.opmsbMode ≠ .fast) : decodeUnmacroed c true op xx = .error .opmsbRole := if_neg h

/-- OP 03 and 2B under opmsb = 1 are the LDX rows (R361). -/
def IsLdxOpcode (op : BitVec 6) : Prop := op = 0x03 ∨ op = 0x2B

theorem decodeFast_of_error (hldx : ¬IsLdxOpcode op) (h : decodeOrdinary op xx = .error e) : decodeFast op xx = .error e := by
  obtain ⟨h3, h2B⟩ := not_or.1 hldx
  simp only [decodeFast, beq_iff_eq, h3, h2B, h, if_false]

theorem decodeFast_of_ok (hldx : ¬IsLdxOpcode op) (h : decodeOrdinary op xx = .ok i) :
    decodeFast op xx = if writesB op xx then .error (.opmsbOnBWriter op xx)
      else .ok ⟨i, if stepsB op then .keep else .inc⟩ := by
  obtain ⟨h3, h2B⟩ := not_or.1 hldx
  simp only [decodeFast, beq_iff_eq, h3, h2B, h, if_false]

theorem decodeFast_ldx (hldx : IsLdxOpcode op) :
    ∃ i, decodeFast op xx = .ok ⟨i, .own⟩ ∧ EncodedBy true op xx i := by
  rcases hldx with rfl | rfl
  · exact ⟨.ldxAImm xx, rfl, rfl, rfl⟩
  · exact ⟨_, rfl, encodedBy_byForm (fun _ h => ⟨bne_iff_ne.2 h, rfl⟩) ⟨rfl, rfl⟩ fun _ => ⟨rfl, rfl⟩⟩

/-! ### Refusals -/

theorem writesB_iff : writesB op xx = true ↔ FastForbiddenPair op xx := by
  simp only [writesB, FastForbiddenPair, Bool.or_eq_true, Bool.and_eq_true, beq_iff_eq, or_assoc]

theorem IsLdxOpcode.hasRow (h : IsLdxOpcode op) : ¬UndefinedPair op xx ∧ ¬FastForbiddenPair op xx := by
  rcases h with rfl | rfl <;> exact ⟨not_undefinedPair (by decide), by simp [FastForbiddenPair]⟩

theorem decodeFast_error_iff :
    (∃ e, decodeFast op xx = .error e) ↔ UndefinedPair op xx ∨ FastForbiddenPair op xx := by
  by_cases hldx : IsLdxOpcode op
  · obtain ⟨i, hi, -⟩ := decodeFast_ldx (xx := xx) hldx
    exact iff_of_false (fun ⟨_, he⟩ => nomatch hi.symm.trans he) (not_or.2 hldx.hasRow)
  · rw [← decodeOrdinary_error_iff, ← writesB_iff]
    cases h : decodeOrdinary op xx with
    | error e => exact iff_of_true ⟨e, decodeFast_of_error hldx h⟩ (.inl ⟨e, rfl⟩)
    | ok i =>
      rw [decodeFast_of_ok hldx h]
      cases writesB op xx <;> simp

theorem decodeUnmacroed_error_iff : (∃ e, decodeUnmacroed c o op xx = .error e) ↔
    UndefinedPair op xx ∨ (o = true ∧ (c.opmsbMode ≠ .fast ∨ FastForbiddenPair op xx)) := by
  cases o with
  | false =>
    rw [← decodeOrdinary_error_iff]
    cases h : decodeOrdinary op xx with
    | error e => simp [decodeUnmacroed_of_error h]
    | ok i => simp [decodeUnmacroed_of_ok h]
  | true =>
    by_cases hfast : c.opmsbMode = .fast
    · rw [decodeUnmacroed_fast hfast, decodeFast_error_iff]
      simp [hfast]
    · simp [decodeUnmacroed_notFast hfast, hfast]

theorem decode_macro_error_iff : (∃ e, decode c mf ifBit (instrWord o true op xx) = .error e) ↔
    c.extOpcodes = true ∨ ifBit = true ∨ (mf = false ∧ o = true) := by
  rw [decode_macro]
  split_ifs <;> simp_all

theorem decode_error_iff (w : InstrWord) :
    (∃ e, decode c mf ifBit w = .error e) ↔ WordWithNoMeaning c mf ifBit w := by
  rw [← instrWord_fields w]
  cases macroOf w with
  | false => simp [decode_unmacroed, decodeUnmacroed_error_iff, WordWithNoMeaning]
  | true => simp [decode_macro_error_iff, WordWithNoMeaning]

theorem decodeFast_forbidden (hf : FastForbiddenPair op xx) (hrow : ¬UndefinedPair op xx) :
    decodeFast op xx = .error (.opmsbOnBWriter op xx) := by
  have hldx : ¬IsLdxOpcode op := fun h => h.hasRow.2 hf
  cases h : decodeOrdinary op xx with
  | error e => exact absurd ((decodeOrdinary_error_iff op xx).1 ⟨e, h⟩) hrow
  | ok i => rw [decodeFast_of_ok hldx h, if_pos (writesB_iff.2 hf)]

end

/-- Settles O4: the refusals of the pair, of opmsb, and of the macro bit, each read off its own part of the decoder. -/
theorem wordsWithNoMeaningAreRefused : Obligations.WordsWithNoMeaningAreRefused := by
  refine ⟨decodeOrdinary_error_iff, fun c mf ifBit w => ⟨decode_error_iff w, ?_⟩⟩
  rw [← instrWord_fields w]
  simp only [macroOf_instrWord, opmsbOf_instrWord, opOf_instrWord, xxOf_instrWord]
  refine ⟨fun hm ho hfast hf hrow => ?_, fun hm ho hfast => ?_, fun hm hext => ?_, fun hm hext hif => ?_,
    fun hm hext hif hmf ho => ?_⟩
  · rw [hm, ho, decode_unmacroed, decodeUnmacroed_fast hfast, decodeFast_forbidden hf hrow]
  · rw [hm, ho, decode_unmacroed, decodeUnmacroed_notFast hfast]
  · rw [hm, decode_macro, if_pos hext]
  · simp [hm, decode_macro, hext, hif]
  · simp [hm, decode_macro, hext, hif, hmf, ho]

/-! ### Words that decode encode back -/

section
variable {c : Config} {mf ifBit o : Bool} {op : BitVec 6} {xx : Byte} {i : Instr} {d : Decoded} {w : InstrWord}

/-- The decoded instruction can be read there, and the word is its encoding, with opmsb set where the fast mode acts on B. -/
def EncodesBack (c : Config) (mf ifBit : Bool) (w : InstrWord) (d : Decoded) : Prop :=
  d.instr.wf = true ∧ DecodableIn c mf ifBit d.instr ∧
    w = (if d.bmod = .own then encode d.instr else withOpmsb (encode d.instr))

theorem decodableIn_of_encode (h : encode i = instrWord o false op xx) (hfast : o = true → c.opmsbMode = .fast) :
    DecodableIn c mf ifBit i := by
  have hmacro : macroOf (encode i) = false := h ▸ macroOf_instrWord ..
  have hopmsb : opmsbOf (encode i) = o := h ▸ opmsbOf_instrWord ..
  cases i with
  | ldxAImm _ | ldxADirect _ | ldxAPtr | ldxAPage _ => exact hfast (hopmsb.symm.trans (opmsbOf_instrWord true false _ _))
  | hmacro _ _ | macroEnd _ _ _ => exact nomatch (macroOf_instrWord _ true _ _).symm.trans hmacro
  | _ => trivial

theorem EncodedBy.encodesBack_own (h : EncodedBy o op xx i) (hfast : o = true → c.opmsbMode = .fast) :
    EncodesBack c mf ifBit (instrWord o false op xx) ⟨i, .own⟩ :=
  ⟨h.1, decodableIn_of_encode h.2 hfast, h.2.symm⟩

/-- Where the fast mode acts on B, the word has opmsb = 1 and the instruction is that of the word without it (R361). -/
theorem EncodedBy.encodesBack_opmsb {bmod : BMod} (h : EncodedBy false op xx i) (hb : bmod ≠ .own) :
    EncodesBack c mf ifBit (instrWord true false op xx) ⟨i, bmod⟩ := by
  refine ⟨h.1, decodableIn_of_encode h.2 nofun, ?_⟩
  rw [if_neg hb, h.2, withOpmsb_instrWord]

theorem decodeFast_encodesBack (hfast : c.opmsbMode = .fast) (h : decodeFast op xx = .ok d) :
    EncodesBack c mf ifBit (instrWord true false op xx) d := by
  by_cases hldx : IsLdxOpcode op
  · obtain ⟨i, hi, henc⟩ := decodeFast_ldx (xx := xx) hldx
    cases h.symm.trans hi
    exact henc.encodesBack_own fun _ => hfast
  · cases hi : decodeOrdinary op xx with
    | error e => exact nomatch h.symm.trans (decodeFast_of_error hldx hi)
    | ok i =>
      rw [decodeFast_of_ok hldx hi] at h
      split at h
      · cases h
      · cases h
        exact (decodeOrdinary_encodedBy hi).2.encodesBack_opmsb (by split <;> nofun)

theorem decodeUnmacroed_encodesBack (h : decodeUnmacroed c o op xx = .ok d) :
    EncodesBack c mf ifBit (instrWord o false op xx) d := by
  cases o with
  | false =>
    cases hi : decodeOrdinary op xx with
    | error e => exact nomatch h.symm.trans (decodeUnmacroed_of_error hi)
    | ok i =>
      cases h.symm.trans (decodeUnmacroed_of_ok hi)
      exact (decodeOrdinary_encodedBy hi).2.encodesBack_own nofun
  | true =>
    by_cases hfast : c.opmsbMode = .fast
    · exact decodeFast_encodesBack hfast ((decodeUnmacroed_fast hfast).symm.trans h)
    · exact nomatch h.symm.trans (decodeUnmacroed_notFast hfast)

theorem decode_macro_encodesBack (h : decode c mf ifBit (instrWord o true op xx) = .ok d) :
    EncodesBack c mf ifBit (instrWord o true op xx) d := by
  rw [decode_macro] at h
  split_ifs at h with hext hif hmf ho
  · cases h
    exact ⟨rfl, ⟨eq_false_of_ne_true hext, hmf, eq_false_of_ne_true hif⟩, rfl⟩
  · cases h
    exact ⟨rfl, ⟨eq_false_of_ne_true hext, eq_false_of_ne_true hmf, eq_false_of_ne_true hif⟩,
      eq_false_of_ne_true ho ▸ rfl⟩

end

/-- Settles O2: a word is its four fields, and in each reading of them the instruction is the one they encode. -/
theorem decodedWordEncodesBack : Obligations.DecodedWordEncodesBack := by
  intro c mf ifBit w d h
  show EncodesBack c mf ifBit w d
  rw [← instrWord_fields w] at h ⊢
  cases hm : macroOf w with
  | false =>
    rw [hm, decode_unmacroed] at h
    exact decodeUnmacroed_encodesBack h
  | true =>
    rw [hm] at h
    exact decode_macro_encodesBack h

/-! ### Encoded instructions decode -/

section
variable {direct page : BitVec 7 → Instr} {rel : Byte → Instr} {ptr c0 c1 z0 z1 viaB atZero at127 : Instr}
  {op : BitVec 6} {m : BitVec 7} {n : Byte} {e : DecodeError}

theorem decodeStore_direct (h : m ≠ 127) :
    byForm (0#1 ++ m) (fun m => .ok (direct m)) (.error e) (fun m => .ok (page m)) = Except.ok (direct m) := byForm_direct h

theorem decodeStore_page :
    byForm (1#1 ++ m) (fun m => .ok (direct m)) (.error e) (fun m => .ok (page m)) = Except.ok (page m) := byForm_page

theorem decodeOrdinary_reti (h : m ≠ 127) : decodeOrdinary 0x1F (0#1 ++ m) = .ok (.reti m) :=
  (if_pos ((toNat_directByte m).trans_le (toNat_le_126 h))).trans (congrArg (Except.ok <| Instr.reti ·) (mOf_formByte ..))

theorem decodeAbsolute_direct (h : m.toNat ≤ 121) :
    decodeAbsolute op direct c0 c1 z0 z1 ptr page (0#1 ++ m) = .ok (direct m) := by
  rw [decodeAbsolute, if_pos ((toNat_directByte m).trans_le h), mOf_formByte]

theorem decodeAbsolute_page : decodeAbsolute op direct c0 c1 z0 z1 ptr page (1#1 ++ m) = .ok (page m) := by
  have hm := toNat_pageByte m
  simp only [decodeAbsolute, mOf_formByte]
  iterate 7 rw [if_neg (by omega)]

theorem decodeRelative_rel (h : (n != 0x7F && n != 0x80) = true) : decodeRelative op rel viaB n = .ok (rel n) := by
  simp only [Bool.and_eq_true, bne_iff_ne] at h
  obtain ⟨h127, h128⟩ := h
  have hn127 : n.toNat ≠ 0x7F := fun h => h127 (BitVec.eq_of_toNat_eq h)
  have hn128 : n.toNat ≠ 0x80 := fun h => h128 (BitVec.eq_of_toNat_eq h)
  rw [decodeRelative, if_neg hn127, if_neg hn128]

theorem decodeLoop_rel (h : (n != 0 && n != 0x7F && n != 0x80) = true) :
    decodeLoop op atZero at127 rel n = .ok (rel n) := by
  simp only [Bool.and_eq_true, bne_iff_ne] at h
  obtain ⟨⟨h0, h127⟩, h128⟩ := h
  have hn0 : n.toNat ≠ 0 := fun h => h0 (BitVec.eq_of_toNat_eq h)
  have hn127 : n.toNat ≠ 0x7F := fun h => h127 (BitVec.eq_of_toNat_eq h)
  have hn128 : n.toNat ≠ 0x80 := fun h => h128 (BitVec.eq_of_toNat_eq h)
  rw [decodeLoop, if_neg hn0, if_neg hn127, if_neg hn128]

theorem decodeSystem_usermode : ∀ k : BitVec 4, k.toNat ≤ 1 → decodeSystem (0x3#4 ++ k) = .ok (.usermode k) := by decide

theorem decodeSystem_offset : ∀ k : BitVec 4, k.toNat ≤ 3 → decodeSystem (0x4#4 ++ k) = .ok (.offset k) := by decide

theorem decodeSystem_int : ∀ k : BitVec 4, decodeSystem (0xD#4 ++ k) = .ok (.int k) := by decide

end

theorem decodeFast_ldxForms (xx : Byte) :
    decodeFast 0x2B xx = .ok ⟨byForm xx .ldxADirect .ldxAPtr .ldxAPage, .own⟩ := rfl

theorem decode_ldx {c : Config} {mf ifBit : Bool} {op : BitVec 6} {xx : Byte} {d : Decoded} (hfast : c.opmsbMode = .fast)
    (h : decodeFast op xx = .ok d) : decode c mf ifBit (instrWord true false op xx) = .ok d := by
  rw [decode_unmacroed, decodeUnmacroed_fast hfast, h]

/-- The instruction is the one the decoder selects for the pair of its encoding. -/
def ReadsBack (i : Instr) : Prop :=
  ∃ op xx, encode i = instrWord false false op xx ∧ decodeOrdinary op xx = .ok i

theorem readsBack_of_wf (i : Instr) (hwf : i.wf = true) (hmacro : hasMacroBit i = false) (hopmsb : hasOpmsb i = false) :
    ReadsBack i := by
  cases i with
  | ldxAImm _ | ldxADirect _ | ldxAPtr | ldxAPage _ => exact nomatch hopmsb
  | hmacro _ _ | macroEnd _ _ _ => exact nomatch hmacro
  | usermode k => exact ⟨0x01, _, rfl, decodeSystem_usermode k (of_decide_eq_true hwf)⟩
  | offset k => exact ⟨0x01, _, rfl, decodeSystem_offset k (of_decide_eq_true hwf)⟩
  | clear k => exact eq_of_beq hwf ▸ ⟨0x01, _, rfl, rfl⟩
  | int k => exact ⟨0x01, _, rfl, decodeSystem_int k⟩
  | jmpDirect m | balDirect m => exact ⟨_, _, rfl, decodeAbsolute_direct (of_decide_eq_true hwf)⟩
  | jmpPage m | balPage m => exact ⟨_, _, rfl, decodeAbsolute_page⟩
  | jrRel n | brRel n | jrC0Rel n | brC0Rel n | jrC1Rel n | brC1Rel n | jrZ0Rel n | brZ0Rel n | jrZ1Rel n | brZ1Rel n =>
    exact ⟨_, _, rfl, decodeRelative_rel hwf⟩
  | loopdecRel n | loopincRel n => exact ⟨_, _, rfl, decodeLoop_rel hwf⟩
  | stDirectA m | stDirectB m => exact ⟨_, _, rfl, decodeStore_direct (bne_iff_ne.1 hwf)⟩
  | stPageA m | zero m => exact ⟨_, _, rfl, decodeStore_page⟩
  | reti m => exact ⟨_, _, rfl, decodeOrdinary_reti (bne_iff_ne.1 hwf)⟩
  | setflagDirect _ | shlDirect _ | shrDirect _ | andDirectA _ | stDirectC _ | xorDirectA _ | getflagDirect _
  | orDirectA _ | inDirect _ | outDirect _ | incDirect _ | inccDirect _ | incxDirect _ | incxcDirect _ | addDirectA _
  | addcDirectA _ | addADirect _ | addcADirect _ | shlcDirect _ | shrcDirect _ | ldADirect _ | ldBDirect _ | ldCDirect _
  | stacpDirect _ | stabDirect _ | stabpDirect _ | decDirect _ | deccDirect _ | decxDirect _ | decxcDirect _
  | subDirectA _ | subcDirectA _ | subADirect _ | subcADirect _ | andADirect _ | xorADirect _ | orADirect _ =>
    exact ⟨_, _, rfl, congrArg Except.ok (byForm_direct (bne_iff_ne.1 hwf))⟩
  | setflagPage _ | shlPage _ | shrPage _ | andPageA _ | stPageC _ | xorPageA _ | getflagPage _ | orPageA _ | inPage _
  | outPage _ | incPage _ | inccPage _ | incxPage _ | incxcPage _ | addPageA _ | addcPageA _ | addAPage _ | addcAPage _
  | shlcPage _ | shrcPage _ | ldAPage _ | ldBPage _ | ldCPage _ | stacpPage _ | stabPage _ | stabpPage _ | decPage _
  | deccPage _ | decxPage _ | decxcPage _ | subPageA _ | subcPageA _ | subAPage _ | subcAPage _ | andAPage _ | xorAPage _
  | orAPage _ =>
    exact ⟨_, _, rfl, congrArg Except.ok byForm_page⟩
  | nop _ | mulx | ldAFromB | ldBFromA | swap | mul | ldBFromC | getpc | getmc | setpc | setmc | getstat | getver | getid
  | cpuinfo | load | save | clc | pmemacc | disable | enable | inputa | outputb | inout | ldAImm _ | ldBImm _ | ldCImm _
  | setflagPtr | shlPtr | shrPtr | andPtrC | stPtrC | xorPtrC | getflagPtr | orPtrC | jmpC0 | jmpC1 | jmpZ0 | jmpZ1
  | jmpPtr | balC0 | balC1 | balZ0 | balZ1 | balPtr | jrB | brB | jrC0B | brC0B | jrC1B | brC1B | jrZ0B | brZ0B | jrZ1B
  | brZ1B | inPtr | outPtr | incPtr | inccPtr | incxPtr | incxcPtr | addPtrC | addcPtrC | addAC | addcAC | shlcPtr
  | shrcPtr | ldAPtr | ldBPtr | ldCPtr | stacpPtr | stacPtr | stzcpPtr | decPtr | deccPtr | decxPtr | decxcPtr | subPtrC
  | subcPtrC | subAC | subcAC | loopdecZero | loopshrc | loopzero | loopshlc | andAC | andAImm _ | xorAC | xorAImm _
  | orAC | orAImm _ =>
    exact ⟨_, _, rfl, rfl⟩

/-- Settles O1: the word of an ordinary row reads back by its pair; LDX and the hard macro words by their own bits. -/
theorem decodeOfEncode : Obligations.DecodeOfEncode := by
  intro c mf ifBit i hwf hdec
  have hordinary (hmacro : hasMacroBit i = false) (hopmsb : hasOpmsb i = false) :
      decode c mf ifBit (encode i) = .ok ⟨i, .own⟩ := by
    obtain ⟨op, xx, henc, hread⟩ := readsBack_of_wf i hwf hmacro hopmsb
    rw [henc, decode_unmacroed, decodeUnmacroed_of_ok hread]
  cases i with
  | ldxAImm _ | ldxAPtr => exact decode_ldx hdec rfl
  | ldxADirect m => exact decode_ldx hdec (by rw [decodeFast_ldxForms, byForm_direct (bne_iff_ne.1 hwf)])
  | ldxAPage m => exact decode_ldx hdec (by rw [decodeFast_ldxForms, byForm_page])
  | hmacro p xx =>
    obtain ⟨hext, hmf, hif⟩ := hdec
    simp [encode, decode_macro, hext, hmf, hif]
  | macroEnd opmsb op xx =>
    obtain ⟨hext, hmf, hif⟩ := hdec
    simp [encode, decode_macro, hext, hmf, hif]
  | _ => exact hordinary rfl rfl

/-- Settles O25: the meanings of R141 and R145 are these updates. -/
theorem nopAndSwapComplete : Obligations.NopAndSwapComplete := fun _ => ⟨fun _ => rfl, rfl⟩

end Sys2Proof.Machine
end

section
/-!
PROOFS. The system rows (spec/40_system.md) and the port rows (spec/45_io.md), by their words and by what they write. An
instruction outside the list of stores is made of operations that leave memory as it is; a product, a transfer or a status
byte is the value Laws/Values.lean gives it; a port read is one byte delivered and one event.
-/

namespace Sys2Proof.Machine

open Sys2Proof

/-! ### Instructions that store nothing -/

section
variable {s t : State} {i : Instr}

/-- From `s` to `t` memory is as it was. -/
def MemoryKept (s t : State) : Prop := t.mem = s.mem

/-- The outcome, if a next state, holds the memory of `s`. -/
abbrev LeavesMemory (s : State) (r : Out) : Prop := Leaves (MemoryKept s) r

/-- An update of other fields: that it leaves memory alone holds by definition of the update. -/
theorem MemoryKept.next (h : MemoryKept s t) {u : State} (hu : MemoryKept t u) : LeavesMemory s (.next u) :=
  leaves_next (Eq.trans hu h)

theorem readOperand_memoryKept (o : Operand) : Leaves (fun r => MemoryKept s r.2) (readOperand s o) :=
  fun _ h => (readOperand_accessOnly h).2

theorem readSource_memoryKept (src : Source) : Leaves (fun r => MemoryKept s r.2) (readSource s src) := by
  cases src with
  | memory o => exact readOperand_memoryKept o
  | regC => exact leaves_next rfl

theorem setflagFrom_memoryKept (o : Operand) : LeavesMemory s (setflagFrom o s) :=
  (readOperand_memoryKept o).onNext fun _ hr => leaves_ite (fun _ => hr.next rfl) fun _ => leaves_refused

theorem outFrom_memoryKept (o : Operand) : LeavesMemory s (outFrom o s) :=
  (readOperand_memoryKept o).onNext fun _ hr => hr.next rfl

theorem execReti_memoryKept (m : BitVec 7) : LeavesMemory s (execReti m s) :=
  leaves_ite
    (fun _ => (dataRead_leaves _).onNext fun _ _ => leaves_ite (fun _ => leaves_next rfl) fun _ => leaves_refused)
    fun _ => leaves_refused

theorem branchIf_memoryKept (cond : Bool) (target : Counter) : LeavesMemory s (branchIf cond target s) := by
  cases cond with
  | false => exact leaves_next rfl
  | true => exact leaves_next rfl

theorem linkIf_memoryKept (cond : Bool) (target : Counter) : LeavesMemory s (linkIf cond target s) := by
  cases cond with
  | false => exact leaves_next rfl
  | true => exact leaves_next rfl

theorem loopStep_memoryKept (target : Counter) (step : Byte) : MemoryKept s (loopStep target step s) := by
  unfold loopStep
  split <;> rfl

theorem loopZeroOffset_memoryKept (step : Byte) : LeavesMemory s (loopZeroOffset step s) := fun t h => by
  rcases loopZeroOffset_eq_next.1 h with ⟨-, rfl⟩ | ⟨-, rfl⟩ <;> exact loopStep_memoryKept _ _

/-- The rows outside the list of stores, by the shared operation behind each. -/
theorem execOrdinary_memoryKept (hi : storesMemory i = false) : LeavesMemory s (execOrdinary i s) := by
  cases i with
  | nop _ | ldAFromB | ldBFromA | swap | ldBFromC | getpc | getmc | setpc | setmc | getstat | getver | getid | cpuinfo
  | clc | disable | enable | inputa | outputb | inout | ldAImm _ | ldBImm _ | ldCImm _ | ldxAImm _ | andAImm _ | xorAImm _
  | orAImm _ | addAC | addcAC | subAC | subcAC | andAC | xorAC | orAC => exact leaves_next rfl
  | usermode _ | offset _ | clear _ | mul | pmemacc => exact leaves_ite (fun _ => leaves_next rfl) fun _ => leaves_refused
  | int _ => exact leaves_ite (fun _ => leaves_refused) fun _ => leaves_next rfl
  | load | save | macroEnd _ _ _ => exact leaves_refused
  | reti m => exact execReti_memoryKept m
  | setflagDirect _ | setflagPtr | setflagPage _ => exact setflagFrom_memoryKept _
  | outDirect _ | outPtr | outPage _ => exact outFrom_memoryKept _
  | ldADirect _ | ldAPtr | ldAPage _ | ldBDirect _ | ldBPtr | ldBPage _ | ldCDirect _ | ldCPtr | ldCPage _ | ldxADirect _
  | ldxAPtr | ldxAPage _ => exact (readOperand_memoryKept _).onNext fun _ hr => hr.next rfl
  | addADirect _ | addAPage _ | addcADirect _ | addcAPage _ | subADirect _ | subAPage _ | subcADirect _ | subcAPage _
  | andADirect _ | andAPage _ | xorADirect _ | xorAPage _ | orADirect _ | orAPage _ =>
    exact (readSource_memoryKept (.memory _)).onNext fun _ hr => hr.next rfl
  | jmpDirect _ | jmpC0 | jmpC1 | jmpZ0 | jmpZ1 | jmpPtr | jmpPage _ | jrRel _ | jrB | jrC0Rel _ | jrC0B | jrC1Rel _
  | jrC1B | jrZ0Rel _ | jrZ0B | jrZ1Rel _ | jrZ1B => exact branchIf_memoryKept _ _
  | balDirect _ | balC0 | balC1 | balZ0 | balZ1 | balPtr | balPage _ | brRel _ | brB | brC0Rel _ | brC0B | brC1Rel _
  | brC1B | brZ0Rel _ | brZ0B | brZ1Rel _ | brZ1B => exact linkIf_memoryKept _ _
  | loopdecRel _ | loopincRel _ => exact leaves_next (loopStep_memoryKept _ _)
  | loopdecZero => exact loopZeroOffset_memoryKept _
  | _ => cases hi

end

/-- Settles O18: an instruction outside the list leaves the whole memory as it is, and so every byte. -/
theorem otherInstructionsLeaveMemoryAlone : Obligations.OtherInstructionsLeaveMemoryAlone := by
  intro i s t hstores hend h p
  have hmem : t.mem = s.mem := execOrdinary_memoryKept hstores t (execOrdinary_eq_exec hend ▸ h)
  rw [hmem]

/-! ### Products -/

section
variable {s : State}

/-- The largest product of two bytes and one byte more still fit into 16 bits. -/
theorem product_lt (x y m : Byte) : x.toNat * y.toNat + m.toNat < 65536 := by
  have hxy : x.toNat * y.toNat ≤ 255 * 255 := Nat.mul_le_mul (Nat.le_of_lt_succ x.isLt) (Nat.le_of_lt_succ y.isLt)
  have hm := m.isLt
  omega

theorem exec_mul (h : s.cfg.hasMul = true) :
    exec .mul s = .next { s with
      c := BitVec.ofNat 8 (s.a.toNat * s.c.toNat / 256)
      a := BitVec.ofNat 8 (s.a.toNat * s.c.toNat) } := by
  have hexec : exec .mul s = _ := if_pos h
  rw [hexec, mulAdd_high, mulAdd_low]
  rfl

/-- MULX past its option and its read: the write of the high byte, and then A (R142). -/
theorem exec_mulx (h : s.cfg.hasMulx = true) (hi : Installed s (windowAddr s 0)) :
    exec .mulx s =
      onNext (dataWrite s (windowAddr s 0)
        (BitVec.ofNat 8 ((s.a.toNat * s.c.toNat + (dataByte s (windowAddr s 0)).toNat) / 256))) fun t =>
      .next { t with a := BitVec.ofNat 8 (s.a.toNat * s.c.toNat + (dataByte s (windowAddr s 0)).toNat) } := by
  have hexec : exec .mulx s = _ := if_pos h
  rw [hexec, dataRead_installed hi, onNext_next, mulAdd_high, mulAdd_low]

end

/-- Settles O29: the halves of the 16-bit product; for MULX the write of the high byte, made or suppressed. -/
theorem multiplicationsComplete : Obligations.MultiplicationsComplete := by
  intro s
  refine ⟨exec_mul, fun h => if_neg (ne_true_of_eq_false h), product_lt _ _ _, fun h hi hw => ?_, fun h hi hw => ?_,
    fun h => if_neg (ne_true_of_eq_false h)⟩
  · refine completesStoring_of_exec ((exec_mulx h hi).trans ?_)
    rw [dataWrite_installed hw hi]
    rfl
  · rw [exec_mulx h hi, dataWrite_suppressed hw, onNext_next]

/-! ### Ports -/

section
variable {s : State} {o : Operand} {v : Byte} {rest : List Byte} {n : Nat}

/-- The next port read delivers `v`, leaves `rest` to come, and brings the count of free values to `n` (R350). -/
structure PortDelivers (s : State) (v : Byte) (rest : List Byte) (n : Nat) : Prop where
  byte : portByte s = v
  rest : s.portIn.tail = rest
  draws : (if s.portIn.isEmpty then s.draws + 1 else s.draws) = n

theorem portDelivers_scripted (h : s.portIn = v :: rest) : PortDelivers s v rest s.draws := by
  constructor <;> simp [portByte, h]

theorem portDelivers_free (h : s.portIn = []) : PortDelivers s (Config.freeByte s.draws) [] (s.draws + 1) := by
  constructor <;> simp [portByte, freeByteNow, h]

theorem PortDelivers.exec_inputa (h : PortDelivers s v rest n) :
    exec .inputa s = .next { s with a := v, portIn := rest, io := s.io ++ [.input s.c v], draws := n } := by
  obtain ⟨rfl, rfl, rfl⟩ := h
  rfl

/-- The output of INOUT goes first, and takes no byte from the script (R167). -/
theorem PortDelivers.exec_inout (h : PortDelivers s v rest n) :
    exec .inout s = .next { s with
      a := v, portIn := rest, io := s.io ++ [.output s.c s.b] ++ [.input s.c v], draws := n } := by
  obtain ⟨rfl, rfl, rfl⟩ := h
  rfl

/-- The port read of IN changes nothing that the address or the accessibility of its operand depends on (R351). -/
theorem PortDelivers.in_completes (h : PortDelivers s v rest n) (hw : Writable s o) :
    CompletesStoring (atForm o .inDirect .inPtr .inPage) s (operandAddr s o) v
      { s with portIn := rest, io := s.io ++ [.input s.c v], draws := n } := by
  obtain ⟨rfl, rfl, rfl⟩ := h
  have hafter : Writable (afterPortRead s s.c) o := by cases o <;> exact hw
  have haddr : operandAddr (afterPortRead s s.c) o = operandAddr s o := by cases o <;> rfl
  refine completesStoring_of_exec ?_
  rw [exec_inTo, inTo, writeOperand_writable hafter, haddr]
  rfl

theorem out_completes (hr : Readable s o) :
    exec (atForm o .outDirect .outPtr .outPage) s = .next { s with io := s.io ++ [.output s.c (operandByte s o)] } := by
  rw [exec_outFrom, outFrom, readOperand_readable hr]
  rfl

end

/-- Settles O31: what a port read delivers, from the script or past its end, and the three rows that read a port. -/
theorem portInstructionsComplete : Obligations.PortInstructionsComplete := by
  refine ⟨fun s v rest h => ?_, fun s h => ?_, fun s => ⟨rfl, fun _ hr => out_completes hr⟩⟩
  · have hd := portDelivers_scripted h
    exact ⟨hd.exec_inputa, hd.exec_inout, fun _ hw => hd.in_completes hw⟩
  · have hd := portDelivers_free h
    exact ⟨hd.exec_inputa, hd.exec_inout, fun _ hw => hd.in_completes hw⟩

/-! ### Words -/

/-- The word that a well-formed instruction encodes to reads back wherever the instruction can be read. -/
theorem decode_word {c : Config} {mf ifBit : Bool} {i : Instr} {w : InstrWord} (hw : encode i = w) (hwf : i.wf = true)
    (hdec : DecodableIn c mf ifBit i) : decode c mf ifBit w = .ok ⟨i, .own⟩ :=
  hw ▸ decodeOfEncode c mf ifBit i hwf hdec

/-- Settles O5: each word is the encoding of its instruction, but for 0xAA7F, which is `LD A,[A:B]` with opmsb set. -/
theorem specWordsDecodeAsTheSpecSays : Obligations.SpecWordsDecodeAsTheSpecSays :=
  ⟨decode_word rfl rfl trivial, decode_word rfl rfl trivial, decode_word rfl rfl trivial, decode_word rfl rfl trivial,
    decode_word rfl rfl trivial, decode_word rfl rfl trivial, decode_word rfl rfl trivial, decode_word rfl rfl trivial,
    decode_word rfl rfl rfl, rfl, decode_word rfl rfl ⟨rfl, rfl, rfl⟩, decode_word rfl rfl ⟨rfl, rfl, rfl⟩⟩

/-- Settles O20: the words read back (O1), and the meanings of R143, R144 and R147 are these updates. -/
theorem registerMovesByTheirRules : Obligations.RegisterMovesByTheirRules :=
  ⟨rfl, fun _ _ _ => decode_word rfl rfl trivial, fun _ => rfl,
    rfl, fun _ _ _ => decode_word rfl rfl trivial, fun _ => rfl,
    rfl, fun _ _ _ => decode_word rfl rfl trivial, fun _ => rfl⟩

/-- Settles O24: the words read back (O1), and neither instruction has a meaning (R159). -/
theorem loadAndSaveAreRefused : Obligations.LoadAndSaveAreRefused :=
  ⟨rfl, rfl, fun _ _ _ => ⟨decode_word rfl rfl trivial, decode_word rfl rfl trivial⟩, fun _ => ⟨rfl, rfl⟩⟩

/-! ### Interrupts -/

/-- Without EF no line and no violation is let through (R402). -/
theorem interruptAccepted_disabled {s : State} (h : s.ef = false) : interruptAccepted s = false := by
  simp [interruptAccepted, h]

/-- Settles O22: the words read back (O1), the meanings write EF alone, and an interrupt needs EF. -/
theorem enableAndDisableByTheirRules : Obligations.EnableAndDisableByTheirRules :=
  ⟨rfl, rfl, fun _ _ _ => ⟨decode_word rfl rfl trivial, decode_word rfl rfl trivial⟩,
    fun _ => ⟨rfl, rfl, interruptAccepted_disabled rfl⟩⟩

theorem encode_int (k : BitVec 4) : encode (.int k) = 0x01D0 ||| k.setWidth 16 := by
  revert k
  decide

theorem exec_int {s : State} (h : s.ifBit = false) (k : BitVec 4) :
    exec (.int k) s = .next (enterInterrupt s (slotVector s.cfg k)) := if_neg (ne_true_of_eq_false h)

theorem exec_int_inInterrupt {s : State} (h : s.ifBit = true) (k : BitVec 4) :
    exec (.int k) s = .refused .intInInterrupt := if_pos h

/-- Slot 3 lies at 38 wherever a counter has the 9 bits that R7 asks for. -/
theorem slotVector_three {cfg : Config} (h : 9 ≤ cfg.pcw) : slotVector cfg 3 = 38 := by
  have hpow : 2 ^ 9 ≤ 2 ^ cfg.pcw := Nat.pow_le_pow_right (by decide) h
  have hmod : 38 % 2 ^ cfg.pcw = 38 := Nat.mod_eq_of_lt (by omega)
  exact congrArg (BitVec.ofNat 17) hmod

/-- Settles O23: INT enters the slot of its operand where IF is 0; slot 3 is at 38. -/
theorem intEntersTheInterruptByItsRule : Obligations.IntEntersTheInterruptByItsRule := by
  refine ⟨fun k => ⟨encode_int k, fun _ _ _ => decode_word (encode_int k) rfl trivial⟩, fun k s h => exec_int h k,
    fun k s h => exec_int_inInterrupt h k, fun s t hpcw h => ?_⟩
  cases hif : s.ifBit with
  | false =>
    cases (exec_int hif 3).symm.trans h
    exact slotVector_three hpcw
  | true => cases (exec_int_inInterrupt hif 3).symm.trans h

/-! ### Counters, modes and status -/

/-- A:B after GETPC or GETMC: the two bytes of half the counter (R148, R149). -/
theorem setAB_ctrIndex (s : State) (v : Counter) :
    setAB s (ctrIndex v) = { s with a := BitVec.ofNat 8 (v.toNat / 512), b := BitVec.ofNat 8 (v.toNat / 2) } := by
  rw [setAB, ctrIndex, index_high, index_low]

/-- Settles O26: half a counter as two bytes, and twice A:B as a counter. -/
theorem counterTransfersComplete : Obligations.CounterTransfersComplete := by
  intro s
  rw [← targetAB_eq]
  exact ⟨congrArg _ (setAB_ctrIndex s s.pc), congrArg _ (setAB_ctrIndex s s.mc), rfl, rfl⟩

theorem statusByte_eq (s : State) :
    statusByte s = BitVec.ofNat 8 ((if s.ef then 128 else 0) + (if s.cfg.hasTimer && s.tm then 2 else 0) +
      (if s.cfg.userMode && s.ae then 1 else 0)) := by
  simp only [statusByte, tmReads, aeReads]
  generalize (s.cfg.hasTimer && s.tm) = timer
  generalize (s.cfg.userMode && s.ae) = violation
  cases s.ef <;> cases timer <;> cases violation <;> rfl

/-- Settles O27: each meaning is its one update behind its guard, the operand range or the option. -/
theorem modeAndStatusInstructionsComplete : Obligations.ModeAndStatusInstructionsComplete := by
  intro s
  rw [← statusByte_eq]
  exact ⟨fun _ hk => if_pos hk, fun _ hk => if_neg (Nat.not_le.2 hk), fun _ hk => if_pos hk,
    fun _ hk => if_neg (Nat.not_le.2 hk), rfl, rfl, fun _ hk => if_neg hk, rfl, fun h => if_pos h,
    fun h => if_neg (ne_true_of_eq_false h)⟩

/-- A write of C from an optional parameter: its value, or the one free value that stands for it (R155 to R157). -/
theorem writeC_getD {s : State} {parameter : Option Byte} {free v : Byte}
    (h : parameter = some v ∨ parameter = none ∧ v = free) :
    (.next { s with c := parameter.getD free } : Out) = .next { s with c := v } := by
  rcases h with rfl | ⟨rfl, rfl⟩ <;> rfl

/-- Settles O28: the parameter, or the one free value of the implementation. -/
theorem identificationInstructionsComplete : Obligations.IdentificationInstructionsComplete :=
  ⟨fun _ => ⟨fun _ h => writeC_getD (.inl h), fun _ h => writeC_getD (.inl h), fun _ h => writeC_getD (.inl h)⟩,
    ⟨_, fun _ h => writeC_getD (.inr ⟨h, rfl⟩)⟩, ⟨_, fun _ h => writeC_getD (.inr ⟨h, rfl⟩)⟩,
    ⟨_, fun _ h => writeC_getD (.inr ⟨h, rfl⟩)⟩⟩

end Sys2Proof.Machine
end

section
/-!
PROOFS. The moves (spec/41_moves.md) where their operands are accessible: loads, stores, copies, the flag register. A load is
one read and an update, a store one write, a copy a read and then a write. The byte GETFLAG stores holds each flag at its
place (R26), so the flags come back from it at the end of an interrupt (R422).
-/

namespace Sys2Proof.Machine

open Sys2Proof

/-! ### Immediates -/

/-- The word of a row without macro bit and opmsb: the OP code above the operand byte (R101). -/
theorem instrWord_plain (op : BitVec 6) (xx : Byte) :
    instrWord false false op xx = op.setWidth 16 <<< 8 ||| xx.setWidth 16 := by
  apply BitVec.eq_of_getLsbD_eq
  intro k hk
  rw [Laws.getLsbD_instrWord]
  by_cases hxx : k < 8
  · simp [hxx, hk]
  · have habove : xx.getLsbD k = false := BitVec.getLsbD_of_ge _ _ (by omega)
    by_cases hop : k < 14
    · simp [hxx, hop, habove, hk]
    · have hop_above : op.getLsbD (k - 8) = false := BitVec.getLsbD_of_ge _ _ (by omega)
      simp [hxx, hop, habove, hop_above]

/-- Settles O21: each word is its OP code above the immediate, and reads back (O1). -/
theorem immediateLoadsByTheirRules : Obligations.ImmediateLoadsByTheirRules := by
  intro n
  have hA : encode (.ldAImm n) = 0x0200 ||| n.setWidth 16 := instrWord_plain 0x02 n
  have hC : encode (.ldCImm n) = 0x0400 ||| n.setWidth 16 := instrWord_plain 0x04 n
  have hB : encode (.ldBImm n) = 0x0300 ||| n.setWidth 16 := instrWord_plain 0x03 n
  exact ⟨hA, fun _ _ _ => decode_word hA rfl trivial, fun _ => rfl,
    hC, fun _ _ _ => decode_word hC rfl trivial, fun _ => rfl,
    hB, fun _ _ _ => decode_word hB rfl trivial, fun _ => rfl⟩

/-! ### One read, one write -/

section
variable {s : State} {o : Operand} {i : Instr} {v : Byte} {d : DataAddr} {m : BitVec 7}

/-- An instruction made of a read and an update completes by the update with the operand byte. -/
theorem exec_of_read (hr : Readable s o) {g : Byte → State → State}
    (hi : exec i s = onNext (readOperand s o) fun r => .next (g r.1 r.2)) : exec i s = .next (g (operandByte s o) s) :=
  hi.trans (readThen_eq_next.2 (.inr ⟨hr, rfl⟩))

/-- An instruction made of one write stores its byte at the operand. -/
theorem completesStoring_of_write (hw : Writable s o) (hi : exec i s = writeOperand s o v) :
    CompletesStoring i s (operandAddr s o) v s :=
  completesStoring_of_exec (hi.trans (writeOperand_writable hw v))

end

/-- Settles O35: each load is one read and the update of its registers. -/
theorem loadsComplete : Obligations.LoadsComplete := by
  refine fun s => ⟨fun o hr => ⟨?_, ?_, ?_, ?_⟩, fun _ => rfl⟩
  · exact exec_of_read hr (g := fun v t => { t with a := v }) (exec_loadA s o)
  · exact exec_of_read hr (g := fun v t => { t with b := v }) (exec_loadB s o)
  · exact exec_of_read hr (g := fun v t => { t with c := v }) (exec_loadC s o)
  · exact exec_of_read hr (g := fun v t => { t with a := v, b := s.a }) (exec_loadExchange s o)

/-- Settles O34: each store is one write; those of B and of 0 have the direct form only, whose write is unchecked. -/
theorem storesComplete : Obligations.StoresComplete := fun s =>
  ⟨fun _ hw => completesStoring_of_write hw rfl, fun _ hw => completesStoring_of_write hw rfl,
    fun _ hw => completesStoring_of_write hw rfl, fun o hw => completesStoring_of_write hw (exec_storeC s o),
    fun _ hw => completesStoring_of_write hw rfl⟩

/-! ### Copies -/

section
variable {s : State} {o : Operand} {i : Instr}

/-- STAB at a source form: the byte read is what the write at `[A:B]` stores. -/
theorem copyToAB_completes (hi : exec i s = copyToAB o s) (hr : Readable s o) (hd : StoreReaches s (pair s.a s.b)) :
    CompletesStoring i s (physData s (pair s.a s.b)) (operandByte s o) s :=
  completesStoring_of_exec (hi.trans (copyToAB_of_write (readOperand_readable hr) (checkedWrite_reaches hd _)))

theorem copyToABStep_completes (hi : exec i s = copyToABStep o s) (hr : Readable s o)
    (hd : StoreReaches s (pair s.a s.b)) :
    CompletesStoring i s (physData s (pair s.a s.b)) (operandByte s o) { s with b := s.b + 1 } :=
  completesStoring_of_exec (hi.trans (copyToABStep_of_write (readOperand_readable hr) (checkedWrite_reaches hd _)))

end

/-- Settles O36: the read of a copy leaves the state as it is, and its write stores the byte read. -/
theorem copiesComplete : Obligations.CopiesComplete := by
  refine fun s => ⟨fun hd => ⟨fun o hr => ?stacp, fun hr => ?stac⟩, fun hd => ⟨fun m hr => ?direct, fun m hr => ?page⟩,
    fun hr hi hw => ?stzcp⟩
  case stacp =>
    exact completesStoring_of_exec ((exec_copyToACStep s o).trans
      (copyToACStep_of_write (readOperand_readable hr) (checkedWrite_reaches hd _)))
  case stac =>
    exact completesStoring_of_exec (execStacPtr_of_write (readOperand_readable hr) (checkedWrite_reaches hd _))
  case direct | page => exact ⟨copyToAB_completes rfl hr hd, copyToABStep_completes rfl hr hd⟩
  case stzcp =>
    exact completesStoring_of_exec (execStzcpPtr_of_write (readOperand_readable hr) (dataWrite_installed hw hi _))

/-! ### The flag register -/

section
variable {s : State} {o : Operand} {m : BitVec 7}

/-- The flags from a byte, with OF in the words of the statements. -/
theorem setFlags_eq (s : State) (v : Byte) :
    setFlags s v = { s with
      cf := v.getLsbD 7
      ofBits := BitVec.ofNat 2 (v.toNat / 8)
      uf := if s.cfg.userMode then v.getLsbD 2 else s.uf
      zf := v.getLsbD 0 } := by
  rw [setFlags, offsetField_eq]

/-- SETFLAG of a readable operand is its test of bit 1 (R203). -/
theorem setflagFrom_readable (hr : Readable s o) :
    setflagFrom o s = if (operandByte s o).getLsbD 1 = s.mf then .next (setFlags s (operandByte s o))
      else .refused .flagByteChangesMf := by
  have hv : operandViolates s o = false := hr.1
  simp only [setflagFrom, readOperand_readable hr, onNext_next, hv, Bool.false_or, beq_iff_eq]

end

/-- Settles O33: SETFLAG is the test of bit 1 and the update of the flags, GETFLAG one write of the flag byte. -/
theorem flagRegisterTransfersComplete : Obligations.FlagRegisterTransfersComplete := by
  intro s o
  rw [exec_setflagFrom, ← flagByte_eq, ← setFlags_eq]
  exact ⟨fun hr hmf => (setflagFrom_readable hr).trans (if_pos hmf),
    fun hr hmf => (setflagFrom_readable hr).trans (if_neg hmf),
    fun hw => completesStoring_of_write hw (exec_getflagTo s o)⟩

/-! ### The flags across an interrupt -/

section
variable {s t u : State} {m : BitVec 7}

theorem exec_reti (hif : s.ifBit = true) (hi : Installed s (ea s (.direct m)))
    (hmf : (operandByte s (.direct m)).getLsbD 1 = s.mf) :
    exec (.reti m) s = .next (leaveInterrupt s (operandByte s (.direct m))) := by
  have hread : dataRead s (windowAddr s m) = .next (operandByte s (.direct m)) := dataRead_installed hi
  have hexec : exec (.reti m) s = _ := if_pos hif
  rw [hexec, hread, onNext_next, if_pos hmf]

/-- The places of the flags in the flag byte (R26). -/
theorem flagByte_fields (s : State) :
    (flagByte s).getLsbD 7 = s.cf ∧ (flagByte s).extractLsb' 3 2 = s.ofBits ∧ (flagByte s).getLsbD 2 = inUser s ∧
      (flagByte s).getLsbD 1 = s.mf ∧ (flagByte s).getLsbD 0 = s.zf := by
  simp only [flagByte]
  generalize inUser s = user
  generalize s.ofBits = offset
  cases s.cf <;> cases s.mf <;> cases s.zf <;> cases user <;> revert offset <;> decide

/-- UF reads after RETI as the byte says, where USER_MODE is true, and as 0 otherwise (R33). -/
theorem inUser_leaveInterrupt (s : State) (v : Byte) :
    inUser (leaveInterrupt s v) = (s.cfg.userMode && v.getLsbD 2) := by
  cases h : s.cfg.userMode <;> simp [inUser, h]

theorem ofEff_inInterrupt (h : s.ifBit = true) : ofEff s = 0 := if_pos h

theorem physData_congr (hcfg : u.cfg = s.cfg) (hpacc : u.paccNow = s.paccNow) (d : DataAddr) :
    physData u d = physData s d := by
  rw [physData, physData, hcfg, hpacc]

/-- In an interrupt the offset does not act, so the address of a direct operand depends on the parameters and `pacc` only
(R69). -/
theorem directAddr_of_interrupt (hs : s.ifBit = true) (hu : u.ifBit = true) (hcfg : u.cfg = s.cfg)
    (hpacc : u.paccNow = s.paccNow) : operandAddr u (.direct m) = operandAddr s (.direct m) := by
  have hea : ea u (.direct m) = ea s (.direct m) := by
    simp only [ea, windowAddr, ofEff_inInterrupt hs, ofEff_inInterrupt hu]
  rw [operandAddr, operandAddr, hea, physData_congr hcfg hpacc]

/-- After GETFLAG its operand reads as the flag byte. -/
theorem read_after_getflag (hw : Writable s (.direct m)) (h : exec (.getflagDirect m) s = .next t) :
    Memory.read t.mem (operandAddr s (.direct m)) = flagByte s := by
  obtain ⟨w, hexec, ⟨hread, -⟩, -⟩ :=
    completesStoring_of_write (i := .getflagDirect m) (v := flagByte s) hw rfl
  cases h.symm.trans hexec
  exact hread

end

/-- Settles O57: the operand has the same address at RETI as at GETFLAG, and holds the flag byte. -/
theorem flagsSurviveAnInterrupt : Obligations.FlagsSurviveAnInterrupt := by
  intro s t u m hs hw hget hcfg hu hmf hpacc hkept
  have haddr := directAddr_of_interrupt (m := m) hs hu hcfg hpacc
  have hbyte : operandByte u (.direct m) = flagByte s := by
    rw [operandByte, haddr, hkept, read_after_getflag hw hget]
  have hinst : Installed u (ea u (.direct m)) := by
    obtain ⟨⟨-, hinst⟩, -⟩ := hw
    rw [Installed, hcfg]
    exact haddr.trans_lt hinst
  obtain ⟨hcf, hof, huser, hmilli, hzf⟩ := flagByte_fields s
  have hreti := exec_reti hu hinst (by rw [hbyte, hmilli, hmf])
  rw [hbyte] at hreti
  refine ⟨_, hreti, rfl, hcf, hof, hzf, hmf, ?_⟩
  rw [inUser_leaveInterrupt, huser, hcfg, inUser]
  cases s.cfg.userMode <;> rfl

end Sys2Proof.Machine
end

section
/-!
PROOFS. Shifts and logic (spec/42_logic_shift.md) where their operands are accessible. Each group is tied to the one shared
operation behind its three rows; a logical operation to A has one form of update for every source. The values of the shifts
are those of Laws/Values.lean.
-/

namespace Sys2Proof.Machine

open Sys2Proof

section
variable {s : State} {o : Operand} {i : Instr} {v : Byte} {c : Bool}

/-- A shift stores its result and moves the bit shifted out to CF (R230). -/
theorem shiftMemory_completes {f : Byte → WithCarry} (hw : Writable s o) (hi : exec i s = shiftMemory f o s)
    (hf : f (operandByte s o) = ⟨v, c⟩) : CompletesStoring i s (operandAddr s o) v { s with cf := c } := by
  refine completesStoring_of_exec (hi.trans (shiftMemory_eq_next.2 (.inr (.inr ⟨hw, ?_⟩))))
  rw [hf]
  rfl

/-- A logical operation to memory stores its result and writes ZF from it (R240). -/
theorem logicMemory_completes {f : Byte → Byte → Byte} (hw : Writable s o) (hi : exec i s = logicMemory f o s) :
    CompletesStoring i s (operandAddr s o) (f (operandByte s o) (memoryPartner s o))
      { s with zf := decide (f (operandByte s o) (memoryPartner s o) = 0) } := by
  rw [← registerOperand_eq_memoryPartner, ← isZero_eq]
  exact completesStoring_of_exec (hi.trans (logicMemory_eq_next.2 (.inr (.inr ⟨hw, rfl⟩))))

/-- The update of a logical operation to A, with ZF in the words of the statements (R246). -/
theorem logicA_eq (f : Byte → Byte → Byte) (v : Byte) (s : State) :
    logicA f v s = { s with a := f s.a v, zf := decide (f s.a v = 0) } := by
  rw [← isZero_eq]
  rfl

theorem logicAFrom_completes {f : Byte → Byte → Byte} (h : SourceReadable s o)
    (hi : exec i s = logicAFrom f (sourceOf o) s) :
    exec i s = .next { s with a := f s.a (sourceByte s o), zf := decide (f s.a (sourceByte s o) = 0) } := by
  rw [hi, logicAFrom, readSource_readable h, onNext_next, logicA_eq]

theorem logicAImm_completes {f : Byte → Byte → Byte} (hi : exec i s = .next (logicA f v s)) :
    exec i s = .next { s with a := f s.a v, zf := decide (f s.a v = 0) } := by
  rw [hi, logicA_eq]

end

/-- Settles O30, from the shared operation of the memory and register sources, and from its update for an immediate. -/
theorem logicToAComplete : Obligations.LogicToAComplete := by
  refine fun s => ⟨fun o h => ⟨?_, ?_, ?_⟩, fun n => ⟨?_, ?_, ?_⟩⟩
  · exact logicAFrom_completes (f := (· &&& ·)) h (by cases o <;> rfl)
  · exact logicAFrom_completes (f := (· ^^^ ·)) h (by cases o <;> rfl)
  · exact logicAFrom_completes (f := (· ||| ·)) h (by cases o <;> rfl)
  · exact logicAImm_completes (f := (· &&& ·)) rfl
  · exact logicAImm_completes (f := (· ^^^ ·)) rfl
  · exact logicAImm_completes (f := (· ||| ·)) rfl

/-- Settles O37, from the shared operation of the shifts; SHL and SHR shift in 0, SHLC and SHRC the old CF. -/
theorem shiftsComplete : Obligations.ShiftsComplete := by
  refine fun s o hw => ⟨?_, ?_, ?_, ?_⟩
  · exact shiftMemory_completes (f := shiftLeft false) hw (by cases o <;> rfl) (shiftLeft_zero _)
  · exact shiftMemory_completes (f := shiftRight false) hw (by cases o <;> rfl) (shiftRight_zero _)
  · exact shiftMemory_completes (f := shiftLeft s.cf) hw (by cases o <;> rfl) (shiftLeft_carry s _)
  · exact shiftMemory_completes (f := shiftRight s.cf) hw (by cases o <;> rfl) (shiftRight_carry s _)

/-- Settles O38, from the shared operation of the memory forms; the form `[A:B]` combines with C (R240). -/
theorem logicToMemoryComplete : Obligations.LogicToMemoryComplete := by
  refine fun s o hw => ⟨?_, ?_, ?_⟩
  · exact logicMemory_completes (f := (· &&& ·)) hw (by cases o <;> rfl)
  · exact logicMemory_completes (f := (· ^^^ ·)) hw (by cases o <;> rfl)
  · exact logicMemory_completes (f := (· ||| ·)) hw (by cases o <;> rfl)

end Sys2Proof.Machine
end

section
/-!
PROOFS. The 16-bit pointer step of INCX and INCXC (spec/43_arith.md R263, R264). An X form at a direct operand moves no direct
operand, so the second instruction meets the byte, the address and the access rights of the first state; the carry of the low
byte is what it adds to the high byte.
-/

namespace Sys2Proof.Machine

open Sys2Proof

section
variable {s : State} {m n : BitVec 7} {v : Byte} {c : Bool} {i : Instr}

/-! ### An exchange at a direct operand -/

/-- Two direct operands share no byte of physical memory (R68, R69). -/
theorem directAddr_injective (h : operandAddr s (.direct m) = operandAddr s (.direct n)) : m = n := by
  have hwindow : windowAddr s m = windowAddr s n := physData_injective h
  have htoNat := congrArg BitVec.toNat hwindow
  rw [windowAddr_toNat, windowAddr_toNat] at htoNat
  exact BitVec.eq_of_toNat_eq (by omega)

/-- From `s` to `t` an X form has put `v` at the direct operand `m` and `c` into CF; as seen through the other direct operands
nothing has changed (R263). -/
structure ExchangedAt (s t : State) (m : BitVec 7) (v : Byte) (c : Bool) : Prop where
  a : t.a = operandByte s (.direct m)
  b : t.b = s.a
  cf : t.cf = c
  stored : operandByte t (.direct m) = v
  kept : ∀ n, n ≠ m → operandByte t (.direct n) = operandByte s (.direct n)
  writable : ∀ n, Writable s (.direct n) → Writable t (.direct n)

/-- An instruction that completes as an X form does at a direct operand ends in an exchange there. -/
theorem exchangedAt_of_completesStoring {z : Bool}
    (h : CompletesStoring i s (operandAddr s (.direct m)) v
      { s with a := operandByte s (.direct m), b := s.a, cf := c, zf := z }) :
    ∃ t, exec i s = .next t ∧ ExchangedAt s t m v c := by
  obtain ⟨t, hexec, ⟨hsame, hother⟩, hstate⟩ := h
  have haddr : ∀ n, operandAddr t (.direct n) = operandAddr s (.direct n) := fun n => by
    rw [hstate]
    rfl
  have hcfg : t.cfg = s.cfg := by rw [hstate]
  have hsuppressed : writeSuppressed t = writeSuppressed s := by
    rw [hstate]
    rfl
  have hregisters : t.a = operandByte s (.direct m) ∧ t.b = s.a ∧ t.cf = c := by
    rw [hstate]
    exact ⟨rfl, rfl, rfl⟩
  obtain ⟨ha, hb, hcf⟩ := hregisters
  refine ⟨t, hexec, ha, hb, hcf, ?stored, ?kept, ?writable⟩
  case stored => rw [operandByte, haddr, hsame]
  case kept =>
    intro n hn
    rw [operandByte, haddr, hother _ fun heq => hn (directAddr_injective heq), operandByte]
  case writable =>
    rintro n ⟨⟨-, hinst⟩, hw⟩
    refine ⟨⟨rfl, ?_⟩, hsuppressed.trans hw⟩
    rw [Installed, hcfg]
    exact (haddr n).trans_lt hinst

theorem incxDirect_exchanges (hw : Writable s (.direct m)) :
    ∃ t, exec (.incxDirect m) s = .next t ∧
      ExchangedAt s t m (operandByte s (.direct m) + 1) (decide (operandByte s (.direct m) = 255)) := by
  obtain ⟨hincx, -⟩ := exchangeFormsComplete s (.direct m) hw
  exact exchangedAt_of_completesStoring hincx

theorem incxcDirect_exchanges (hw : Writable s (.direct m)) :
    ∃ t, exec (.incxcDirect m) s = .next t ∧
      ExchangedAt s t m (operandByte s (.direct m) + carryByte s) (s.cf && decide (operandByte s (.direct m) = 255)) := by
  obtain ⟨-, hincxc, -⟩ := exchangeFormsComplete s (.direct m) hw
  exact exchangedAt_of_completesStoring hincxc

end

/-! ### The pair as a 16-bit number -/

/-- The low byte plus 1 and the high byte plus its carry are the pair plus 1 modulo 65536 (R264). -/
theorem pair_increment (hi lo : Byte) :
    (hi + if lo = 255 then 1 else 0).toNat * 256 + (lo + 1).toNat = (hi.toNat * 256 + lo.toNat + 1) % 65536 := by
  by_cases hwrap : lo = 255
  · rw [if_pos hwrap]
    bv_omega
  · rw [if_neg hwrap]
    bv_omega

/-- The pair is at its maximum when both bytes are. -/
theorem pair_max_iff (hi lo : Byte) : hi.toNat * 256 + lo.toNat = 65535 ↔ lo = 255 ∧ hi = 255 := by
  bv_omega

/-- Settles O58: the exchange of the low byte, then that of the high byte with the carry of the low byte. -/
theorem pointerStepsAsSixteenBits : Obligations.PointerStepsAsSixteenBits := by
  intro s lo hi hne hlo hhi
  obtain ⟨t, hincx, low⟩ := incxDirect_exchanges hlo
  obtain ⟨u, hincxc, high⟩ := incxcDirect_exchanges (low.writable hi hhi)
  have hhigh : operandByte t (.direct hi) = operandByte s (.direct hi) := low.kept hi hne.symm
  refine ⟨t, u, hincx, hincxc, high.a.trans hhigh, high.b.trans low.a, ?sum, ?carry⟩
  case sum =>
    rw [high.stored, high.kept lo hne, low.stored, hhigh, carryByte, low.cf, ← pair_increment]
    simp only [decide_eq_true_eq]
  case carry =>
    rw [high.cf, low.cf, hhigh, ← Bool.decide_and, decide_eq_decide, pair_max_iff]

end Sys2Proof.Machine
end

section
/-!
PROOFS. Jumps, branches with link and loops (spec/44_branch_loop.md). A branch is its condition and its target, each put in the
words of the statements. A compound loop is a store at `[A:B]` and then the loop step, which neither looks at memory nor
writes it. A link and the jump back are inverse: half of an even counter, split into bytes, put together and doubled.
-/

namespace Sys2Proof.Machine

open Sys2Proof

/-! ### Targets and conditions -/

section
variable {s : State} {i : Instr} {cond : Bool} {P : Prop} [Decidable P] {target : Counter}

theorem targetN_eq (s : State) (n : Byte) : targetN s n = nxtPlus s (2 * n.toInt) := relativeTarget_eq s _

theorem targetB_eq (s : State) :
    targetB s = nxtPlus s (2 * (if s.cfg.jrbSigned then s.b.toInt else (s.b.toNat : Int))) := relativeTarget_eq s _

/-- JSIG121 holds a branch back at operand 121 only, with the option on and the signal 0 (R309). -/
theorem not_gated_iff (s : State) (m : BitVec 7) :
    (!gated s m) = true ↔ ¬(m.toNat = 121 ∧ s.cfg.jsig121Option = true ∧ s.lines.jsig121 = false) := by
  rw [Bool.not_eq_true', ← Bool.not_eq_true]
  simp [gated, BitVec.toNat_eq, and_assoc]

/-- The condition of the forms that branch on a flag being 0 (R303). -/
theorem flag_clear_iff (flag : Bool) : (!flag) = true ↔ flag = false := (Bool.not_eq_true' flag).to_iff

/-- A jump whose condition is `P` writes the active counter where `P` holds, and does nothing otherwise (R300). -/
theorem jump_completes (hi : exec i s = branchIf cond target s) (hcond : cond = true ↔ P) :
    exec i s = .next (if P then setCtr s target else s) := by
  rw [hi, branchIf, if_congr hcond rfl rfl]

/-- A branch and link whose condition is `P` writes the active counter and A:B where `P` holds, and does nothing otherwise
(R300, R302). -/
theorem link_completes (hi : exec i s = linkIf cond target s) (hcond : cond = true ↔ P) :
    exec i s = .next (if P then linkedTo s target else s) := by
  rw [hi, linkIf, link_setCtr_eq, if_congr hcond rfl rfl]

theorem link_taken (hi : exec i s = linkIf true target s) : exec i s = .next (linkedTo s target) :=
  hi.trans (congrArg _ (link_setCtr_eq s target))

end

/-! ### Jumps, and branches with link -/

/-- Settles O43: the condition and the target of each jump. -/
theorem jumpsComplete : Obligations.JumpsComplete := by
  intro s
  rw [← targetAB_eq]
  refine ⟨fun m => ?direct, ?c0, ?c1, ?z0, ?z1, rfl, fun _ => rfl⟩
  case direct => exact (jump_completes rfl (not_gated_iff s m)).trans (congrArg _ (ite_not ..))
  case c0 | z0 => exact jump_completes rfl (flag_clear_iff _)
  case c1 | z1 => exact jump_completes rfl .rfl

/-- Settles O44: the condition and the target of each branch with link. -/
theorem branchAndLinkComplete : Obligations.BranchAndLinkComplete := by
  intro s
  rw [← targetAB_eq]
  refine ⟨fun m => ?direct, ?c0, ?c1, ?z0, ?z1, link_taken rfl, fun _ => link_taken rfl⟩
  case direct => exact (link_completes rfl (not_gated_iff s m)).trans (congrArg _ (ite_not ..))
  case c0 | z0 => exact link_completes rfl (flag_clear_iff _)
  case c1 | z1 => exact link_completes rfl .rfl

/-- Settles O45: the two targets, under each of the five conditions. -/
theorem relativeJumpsComplete : Obligations.RelativeJumpsComplete := by
  intro s n
  rw [← targetN_eq, ← targetB_eq]
  refine ⟨rfl, rfl, ?c0n, ?c0b, ?c1n, ?c1b, ?z0n, ?z0b, ?z1n, ?z1b⟩
  case c0n | c0b | z0n | z0b => exact jump_completes rfl (flag_clear_iff _)
  case c1n | c1b | z1n | z1b => exact jump_completes rfl .rfl

/-- Settles O46: the two targets, under each of the five conditions. -/
theorem relativeBranchAndLinkComplete : Obligations.RelativeBranchAndLinkComplete := by
  intro s n
  rw [← targetN_eq, ← targetB_eq]
  refine ⟨link_taken rfl, link_taken rfl, ?c0n, ?c0b, ?c1n, ?c1b, ?z0n, ?z0b, ?z1n, ?z1b⟩
  case c0n | c0b | z0n | z0b => exact link_completes rfl (flag_clear_iff _)
  case c1n | c1b | z1n | z1b => exact link_completes rfl .rfl

/-! ### Call and return -/

section
variable {s : State} {i : Instr}

/-- The linking branches are the instructions that have `linkIf` for their meaning (R302). -/
theorem exec_linking (hi : isLinking i = true) (s : State) : ∃ cond target, exec i s = linkIf cond target s := by
  cases i with
  | balDirect _ | balC0 | balC1 | balZ0 | balZ1 | balPtr | balPage _ => exact ⟨_, _, rfl⟩
  | brRel _ | brB | brC0Rel _ | brC0B | brC1Rel _ | brC1B | brZ0Rel _ | brZ0B | brZ1Rel _ | brZ1B => exact ⟨_, _, rfl⟩
  | _ => cases hi

/-- A:B after the link is the index whose byte address is the counter it was taken from (R302, R103). -/
theorem indexAddr_linkedTo (hc : CounterOk s.cfg (ctr s)) (target : Counter) :
    indexAddr (linkedTo s target) ((linkedTo s target).a.toNat * 256 + (linkedTo s target).b.toNat) = ctr s := by
  obtain ⟨hlt, heven⟩ : CounterOk (linkedTo s target).cfg (ctr s) := hc
  have hwidth : (ctr s).toNat < 131072 := (ctr s).isLt
  have hindex : ((linkedTo s target).a.toNat * 256 + (linkedTo s target).b.toNat) * 2 = (ctr s).toNat := by
    simp only [linkedTo, BitVec.toNat_ofNat]
    omega
  rw [indexAddr, hindex, Nat.mod_eq_of_lt hlt, BitVec.ofNat_toNat, BitVec.setWidth_eq]

/-- `JMP A:B` right after a taken branch with link goes back to `nxt` (R340). -/
theorem jmpPtr_linkedTo (hc : CounterOk s.cfg (ctr s)) (target : Counter) :
    exec .jmpPtr (linkedTo s target) = .next (setCtr (linkedTo s target) (ctr s)) := by
  obtain ⟨-, -, -, -, -, hptr, -⟩ := jumpsComplete (linkedTo s target)
  rw [hptr, indexAddr_linkedTo hc]

end

/-- Settles O56: not taken, the branch leaves the state; taken, the jump back ends at the counter of the call. -/
theorem callThenReturnComesBack : Obligations.CallThenReturnComesBack := by
  intro i s t hi _ hc ht
  obtain ⟨cond, target, hexec⟩ := exec_linking hi s
  cases cond with
  | false =>
    cases hexec.symm.trans ht
    exact .inl rfl
  | true =>
    cases (link_taken hexec).symm.trans ht
    exact .inr ⟨_, jmpPtr_linkedTo hc target, ctr_setCtr _⟩

/-! ### Loops -/

/-- The two readings of LOOP0_REPEAT under which a loop with offset 0 has a target, and that target (R331, R336). -/
abbrev LoopTarget (s : State) (self : Counter) : Prop :=
  s.cfg.loop0Repeat = .repeatSelf ∧ self = nxtPlus s (-2) ∨ s.cfg.loop0Repeat = .fallthrough ∧ self = ctr s

section
variable {s w : State} {i : Instr} {self : Counter} {k v : Byte} {p : Nat}

/-- A loop with offset 0 that is not refused is the loop step to its target. -/
theorem loopZeroOffset_next (hself : LoopTarget s self) : loopZeroOffset k s = .next (loopStep self k s) := by
  obtain ⟨-, t, ht, hloop⟩ := loopCompound_eq_next.1 (loopCompound_next (op := .next) (k := k) rfl rfl rfl hself)
  cases ht
  exact hloop

/-- The loop step leaves the byte just stored, and the byte it replaced, as they are. -/
theorem loopStep_stored (mem : List Host.Cell) (stale : Option Host.Cell) :
    loopStep self k { w with mem := mem, stale := stale } = { loopStep self k w with mem := mem, stale := stale } := by
  by_cases hc : w.c = 0
  · rw [loopStep_of_zero hc]
    exact loopStep_of_zero hc
  · rw [loopStep_of_nonzero hc]
    exact loopStep_of_nonzero hc

/-- A compound loop whose memory operation stores `v` at `p` stores it, and steps the loop in the state `w` of the other writes of
that operation (R332, R336, R337). -/
theorem compoundLoop_completes {op : State → Out} (hi : exec i s = loopCompound op k s)
    (hop : op s = .next { w with mem := Memory.write s.mem p v, stale := some (p, Memory.read s.mem p) })
    (hcfg : w.cfg = s.cfg) (hctr : ctr w = ctr s) (hself : LoopTarget s self) :
    CompletesStoring i s p v (loopStep self k w) := by
  refine completesStoring_of_exec (hi.trans ?_)
  rw [← loopStep_stored]
  exact loopCompound_next hop hcfg hctr hself

/-- The shift of a loop, as SHRC and SHLC do it: one store, and the bit shifted out to CF (R332, R337). -/
theorem shiftAtAB_writable {f : Byte → WithCarry} {c : Bool} (hw : Writable s .ptr)
    (hf : f (operandByte s .ptr) = ⟨v, c⟩) :
    shiftAtAB f s = .next { s with
      cf := c, mem := Memory.write s.mem (operandAddr s .ptr) v
      stale := some (operandAddr s .ptr, Memory.read s.mem (operandAddr s .ptr)) } := by
  refine shiftMemory_eq_next.2 (.inr (.inr ⟨hw, ?_⟩))
  rw [hf]
  rfl

theorem loopZeroOffset_refuse (h : s.cfg.loop0Repeat = .refuse) : loopZeroOffset k s = .refused .loop0Open := by
  rw [loopZeroOffset, h]

theorem loopCompound_refuse {op : State → Out} (h : s.cfg.loop0Repeat = .refuse) :
    loopCompound op k s = .refused .loop0Open := if_pos h

end

/-- Settles O47: the loop step to `nxt + 2n`, with C not 0 and with C = 0. -/
theorem loopsWithOffsetComplete : Obligations.LoopsWithOffsetComplete := by
  intro s n
  rw [← targetN_eq, BitVec.sub_eq_add_neg s.b 1]
  exact ⟨fun hc => ⟨congrArg _ (loopStep_of_nonzero hc), congrArg _ (loopStep_of_nonzero hc)⟩,
    fun hc => ⟨congrArg _ (loopStep_of_zero hc), congrArg _ (loopStep_of_zero hc)⟩⟩

/-- Settles O48: the loop step to `self`, alone or after a store at `[A:B]`; under the third reading the refusal. -/
theorem loopsWithoutOffsetComplete : Obligations.LoopsWithoutOffsetComplete := by
  refine ⟨fun s self hself => ?_, fun s h => ?refuse⟩
  case refuse =>
    exact ⟨loopZeroOffset_refuse h, loopCompound_refuse (op := (writeOperand · .ptr 0)) h, loopCompound_refuse h,
      loopCompound_refuse h⟩
  rw [BitVec.sub_eq_add_neg s.b 1]
  refine ⟨loopZeroOffset_next hself, fun hw => ⟨?zero, ?shrc, ?shlc⟩⟩
  case zero =>
    exact compoundLoop_completes (op := (writeOperand · .ptr 0)) (w := s) rfl (writeOperand_writable hw 0) rfl rfl hself
  case shrc =>
    exact compoundLoop_completes (w := { s with cf := (operandByte s .ptr).getLsbD 0 }) rfl
      (shiftAtAB_writable hw (shiftRight_carry s _)) rfl rfl hself
  case shlc =>
    exact compoundLoop_completes (w := { s with cf := (operandByte s .ptr).getLsbD 7 }) rfl
      (shiftAtAB_writable hw (shiftLeft_carry s _)) rfl rfl hself

end Sys2Proof.Machine
end

section
/-!
PROOFS. The classes of the fast mode (spec/46_opmsb_hardmacro.md R361, R362) and the end of a hard macro (R370 to R372). The
decoder tests the classes by OP code and sub-code, the statements by instruction; the two agree on the encoding of every row.
A macro end is the decoding of its own instruction, its run by `exec`, and one update.
-/

namespace Sys2Proof.Machine

open Sys2Proof Sys2Proof.Laws

/-! ### Classes by word and by instruction -/

section
variable {c : Config} {o m o' m' : Bool} {op op' : BitVec 6} {xx xx' : Byte} {i : Instr} {d : Decoded}

theorem instrWord_injective (h : instrWord o m op xx = instrWord o' m' op' xx') : m = m' ∧ op = op' ∧ xx = xx' :=
  ⟨by simpa using congrArg macroOf h, by simpa using congrArg opOf h, by simpa using congrArg xxOf h⟩

/-- The classes C and F of R361 are the same by OP code and sub-code as by instruction. -/
def ClassesAgree (i : Instr) (op : BitVec 6) (xx : Byte) : Prop :=
  writesB op xx = isFastForbidden i ∧ stepsB op = isFastCancelled i

/-- The encoding of a row fixes its pair; of the rows with a 4-bit operand, where the sub-code varies, none is in C or F. -/
theorem classesAgree_of_encode (h : encode i = instrWord false false op xx) : ClassesAgree i op xx := by
  have hsystemK : ∀ n k : BitVec 4, n ∈ [3#4, 4#4, 6#4, 13#4] → writesB 0x01 (n ++ k) = false := by decide
  cases i with
  | usermode k | offset k | clear k | int k =>
    obtain ⟨-, rfl, rfl⟩ := instrWord_injective h
    exact ⟨hsystemK _ k (by decide), rfl⟩
  | hmacro _ _ | macroEnd _ _ _ => exact nomatch (instrWord_injective h).1
  | _ =>
    obtain ⟨-, rfl, rfl⟩ := instrWord_injective h
    exact ⟨rfl, rfl⟩

theorem classesAgree_of_decodeOrdinary (h : decodeOrdinary op xx = .ok i) : ClassesAgree i op xx := by
  obtain ⟨-, -, hencode⟩ := decodeOrdinary_encodedBy h
  exact classesAgree_of_encode hencode

/-- A pair selects no hard macro end: with MF = 0 that could not be read (R371). -/
theorem isMacroEnd_of_decodeUnmacroed (h : decodeUnmacroed c o op xx = .ok d) : isMacroEnd d.instr = false := by
  obtain ⟨-, hreadable, -⟩ := decodeUnmacroed_encodesBack (mf := false) (ifBit := false) h
  cases hi : d.instr with
  | macroEnd _ _ _ =>
    rw [hi] at hreadable
    obtain ⟨-, hmf, -⟩ := hreadable
    cases hmf
  | _ => rfl

end

/-- Settles O3: the LDX rows as the decoder has them; elsewhere its test by OP code and sub-code is the class of the instruction. -/
theorem fastModeClasses : Obligations.FastModeClasses := by
  intro c op xx hfast
  rw [decodeUnmacroed_fast hfast]
  refine ⟨?immediate, ?forms, fun h3 h2B => ?others⟩
  case immediate =>
    rintro rfl
    rfl
  case forms =>
    rintro rfl
    exact decodeFast_ldxForms xx
  case others =>
    have hldx : ¬IsLdxOpcode op := not_or.2 ⟨h3, h2B⟩
    refine ⟨fun i hi => ?_, fun e => decodeFast_of_error hldx⟩
    obtain ⟨hforbidden, hcancelled⟩ := classesAgree_of_decodeOrdinary hi
    rw [decodeFast_of_ok hldx hi, hforbidden, hcancelled]

/-! ### The end of a hard macro -/

section
variable {s : State} {o : Bool} {op : BitVec 6} {xx : Byte} {d : Decoded} {e : DecodeError}

/-- Where a macro end is read (R371). -/
def InMillicode (s : State) : Prop := s.ifBit = false ∧ s.mf = true

theorem execMacroEnd_of_error (hs : InMillicode s) (h : decodeUnmacroed s.cfg o op xx = .error e) :
    execMacroEnd o op xx s = .refused (.encoding e) := by
  obtain ⟨hif, hmf⟩ := hs
  simp [execMacroEnd, hif, hmf, h]

theorem execMacroEnd_of_forbidden (hs : InMillicode s) (h : decodeUnmacroed s.cfg o op xx = .ok d)
    (hend : endForbidden op xx = true) : execMacroEnd o op xx s = .refused .macroEndForbidden := by
  obtain ⟨hif, hmf⟩ := hs
  simp [execMacroEnd, hif, hmf, h, hend]

/-- A macro end that is not refused for its word runs its own instruction as `exec` does, and then updates B and MF. -/
theorem execMacroEnd_of_ok (hs : InMillicode s) (h : decodeUnmacroed s.cfg o op xx = .ok d)
    (hend : endForbidden op xx = false) : execMacroEnd o op xx s =
      onNext (exec d.instr s) fun t => .next { applyBMod d.bmod s.b t with mf := false } := by
  obtain ⟨hif, hmf⟩ := hs
  simp [execMacroEnd, hif, hmf, h, hend, execOrdinary_eq_exec (isMacroEnd_of_decodeUnmacroed h)]

theorem execMacroEnd_of_next {t : State} (hs : InMillicode s) (h : decodeUnmacroed s.cfg o op xx = .ok d)
    (hend : endForbidden op xx = false) (hrun : exec d.instr s = .next t) :
    execMacroEnd o op xx s = .next { applyBMod d.bmod s.b t with mf := false } := by
  rw [execMacroEnd_of_ok hs h hend, hrun, onNext_next]

theorem execMacroEnd_of_refused {r : Refusal} (hs : InMillicode s) (h : decodeUnmacroed s.cfg o op xx = .ok d)
    (hend : endForbidden op xx = false) (hrun : exec d.instr s = .refused r) : execMacroEnd o op xx s = .refused r := by
  rw [execMacroEnd_of_ok hs h hend, hrun, onNext_refused]

theorem execMacroEnd_nop (hs : InMillicode s) : execMacroEnd false 0x00 xx s = .next { s with mf := false } :=
  execMacroEnd_of_next (d := ⟨.nop xx, .own⟩) hs rfl rfl rfl

theorem execMacroEnd_ldAImm (hs : InMillicode s) : execMacroEnd false 0x02 xx s = .next { s with a := xx, mf := false } :=
  execMacroEnd_of_next (d := ⟨.ldAImm xx, .own⟩) hs rfl rfl rfl

theorem endForbidden_iff : endForbidden op xx = true ↔
    (0x10 ≤ op.toNat ∧ op.toNat ≤ 0x1B) ∨ op = 0x38 ∨ op = 0x39 ∨ op = 0x1F ∨
      (op = 0x01 ∧ (xx = 0x28 ∨ (0xD0 ≤ xx.toNat ∧ xx.toNat ≤ 0xDF))) := by
  simp only [endForbidden, Bool.or_eq_true, Bool.and_eq_true, decide_eq_true_eq, beq_iff_eq, or_assoc]

end

/-- Settles O50: the own instruction decoded and run by `exec`, and before that the refusals, each from its own test. -/
theorem hardMacroEndRunsItsInstruction : Obligations.HardMacroEndRunsItsInstruction := by
  intro s o op xx
  refine ⟨?nop, ?load, ?next, endForbidden_iff, ?refused, ?undefined, ?forbidden, ?outside, ?interrupt⟩
  case nop => exact fun hif hmf => execMacroEnd_nop ⟨hif, hmf⟩
  case load => exact fun hif hmf => execMacroEnd_ldAImm ⟨hif, hmf⟩
  case next => exact fun d t hif hmf hend hd hrun => execMacroEnd_of_next ⟨hif, hmf⟩ hd hend hrun
  case refused => exact fun d e hif hmf hend hd hrun => execMacroEnd_of_refused ⟨hif, hmf⟩ hd hend hrun
  case undefined => exact fun e hif hmf hd => execMacroEnd_of_error ⟨hif, hmf⟩ hd
  case forbidden => exact fun d hif hmf hd hend => execMacroEnd_of_forbidden ⟨hif, hmf⟩ hd hend
  case outside => exact fun hif hmf => (if_neg (hif ▸ Bool.false_ne_true)).trans (if_pos (hmf ▸ rfl))
  case interrupt => exact fun hif => if_pos hif

/-! ### The return to the caller -/

section
variable {s t : State} {p : BitVec 6} {xx : Byte}

/-- A hard macro entry that completes was made outside interrupts and millicode, and is an access to memory and the update of R370. -/
theorem execHmacro_next (h : execHmacro p xx s = .next t) : s.ifBit = false ∧ s.mf = false ∧
    ∃ w, Accessed s w ∧ t = { w with c := xx, mc := macroEntry s.cfg p, mf := true } := by
  cases hif : s.ifBit with
  | true => simp [execHmacro, hif] at h
  | false =>
    cases hmf : s.mf with
    | true => simp [execHmacro, hif, hmf] at h
    | false =>
      rw [execHmacro_of_write hif hmf rfl, onNext_eq_next] at h
      obtain ⟨w, hw, ht⟩ := h
      cases ht
      exact ⟨rfl, rfl, w, windowWrite_accessed _ _ w hw, rfl⟩

end

/-- Settles O59: the entry writes MC and leaves PC, the counter that is active again once MF is 0 (R27). -/
theorem hardMacroReturnsToTheCaller : Obligations.HardMacroReturnsToTheCaller := by
  intro s t p xx h
  obtain ⟨hif, hmf, w, hw, rfl⟩ := execHmacro_next h
  cases hw
  have hcaller : ctr s = s.pc := by simp [ctr, hif, hmf]
  refine ⟨?_, rfl, hcaller, fun u yy huif humf hpc => ⟨_, execMacroEnd_nop ⟨huif, humf⟩, ?_⟩⟩
  · simp [ctr, hif, macroEntry, wrapCtr]
  · rw [hcaller, ← hpc]
    simp [ctr, huif]

end Sys2Proof.Machine
end

section
/-!
PROOFS. The interrupt entry and the return from it (spec/60_exceptions.md R402 to R406, R411, R420). Whether a boundary accepts
is one condition on IF, EF and the requests, and the entry goes to one of three vectors, by priority; RETI is one unchecked read
of its direct operand behind the test of IF, and before the test of bit 1.
-/

namespace Sys2Proof.Machine

open Sys2Proof

section
variable {s : State} {m : BitVec 7}

/-! ### Acceptance at a boundary -/

/-- Something asks for an interrupt: a line, or AE on the input of INT1, which a platform without user mode does not have
(R402, R411). -/
def Requested (s : State) : Prop :=
  s.lines.int0 = true ∨ s.lines.int1 = true ∨ (s.cfg.userMode = true ∧ s.ae = true)

/-- The condition of R402: outside interrupts, with interrupts enabled, on request. -/
theorem interruptAccepted_eq_true : interruptAccepted s = true ↔ s.ifBit = false ∧ s.ef = true ∧ Requested s := by
  simp only [interruptAccepted, aeRequest, aeReads, Requested, Bool.and_eq_true_iff, Bool.or_eq_true, Bool.not_eq_true',
    and_assoc, or_assoc]

theorem not_requested (h0 : s.lines.int0 = false) (h1 : s.lines.int1 = false)
    (hae : s.cfg.userMode = false ∨ s.ae = false) : ¬ Requested s := by
  rintro (h | h | ⟨huser, h⟩)
  · exact Bool.false_ne_true (h0.symm.trans h)
  · exact Bool.false_ne_true (h1.symm.trans h)
  · rcases hae with hae | hae
    · exact Bool.false_ne_true (hae.symm.trans huser)
    · exact Bool.false_ne_true (hae.symm.trans h)

theorem step_of_accepted (h : interruptAccepted s = true) : step s = .next (endStep (takeInterrupt s)) := if_pos h

/-- The vector is slot 0 for INT0, else slot 15 for INT1, else the one of the violation, within the counter's width (R405,
R406). -/
theorem requestVector_eq (s : State) : requestVector s =
    BitVec.ofNat 17 ((if s.lines.int0 then 32 else if s.lines.int1 then 62 else s.cfg.aeVector) % 2 ^ s.cfg.pcw) := by
  unfold requestVector
  cases s.lines.int0
  · cases s.lines.int1
    · rfl
    · rfl
  · rfl

/-! ### The return -/

theorem exec_reti_outsideInterrupt (hif : s.ifBit = false) : exec (.reti m) s = .refused .retiOutsideInterrupt :=
  if_neg (ne_true_of_eq_false hif)

/-- Bit 1 of the byte would change MF, which RETI does not write (R203, R420). -/
theorem exec_reti_changesMf (hif : s.ifBit = true) (hi : Installed s (ea s (.direct m)))
    (hmf : (operandByte s (.direct m)).getLsbD 1 ≠ s.mf) : exec (.reti m) s = .refused .flagByteChangesMf := by
  have hread : dataRead s (windowAddr s m) = .next (operandByte s (.direct m)) := dataRead_installed hi
  have hexec : exec (.reti m) s = _ := if_pos hif
  rw [hexec, hread, onNext_next, if_neg hmf]

/-- The flags of the byte and the cleared IF, with OF in the words of the statements. -/
theorem leaveInterrupt_eq (s : State) (v : Byte) :
    leaveInterrupt s v = { s with
      cf := v.getLsbD 7
      ofBits := BitVec.ofNat 2 (v.toNat / 8)
      uf := if s.cfg.userMode then v.getLsbD 2 else s.uf
      zf := v.getLsbD 0
      ifBit := false } := by
  rw [leaveInterrupt, setFlags_eq]

end

/-- Settles O8: the boundary accepts just where IF, EF and a request say so, and an accepted step is the entry to the vector of
the request, with the end of the step. -/
theorem stepTakesTheInterrupt : Obligations.StepTakesTheInterrupt := by
  refine ⟨fun s hif hef hreq => ?entry, fun s hnone => Bool.eq_false_iff.2 fun hacc => ?none⟩
  case entry =>
    rw [step_of_accepted (interruptAccepted_eq_true.2 ⟨hif, hef, hreq⟩), ← requestVector_eq]
    rfl
  case none =>
    obtain ⟨hif, hef, hreq⟩ := interruptAccepted_eq_true.1 hacc
    rcases hnone with h | h | ⟨h0, h1, hae⟩
    · exact Bool.false_ne_true (hif.symm.trans h)
    · exact Bool.false_ne_true (h.symm.trans hef)
    · exact not_requested h0 h1 hae hreq

/-- Settles O32: the refusal outside interrupts, and behind the read of the direct operand the two answers of the test of bit
1. -/
theorem retiReturnsFromTheInterrupt : Obligations.RetiReturnsFromTheInterrupt := by
  refine fun s m => ⟨exec_reti_outsideInterrupt, fun hif hi => ⟨fun hmf => ?_, exec_reti_changesMf hif hi⟩⟩
  rw [exec_reti hif hi hmf, leaveInterrupt_eq]

end Sys2Proof.Machine
end
